-- ==== Sys2Proof/Word.lean ====
section
/-! DEFINITION. The word types of the block: 32-bit words, bytes, halfwords and the 64-bit counters
(spec 00 R7, R9). Register numbers and slot numbers are plain naturals: nothing adds or masks them. -/

namespace Sys2Proof

/-- A register value, address, program counter or instruction word (XLEN = 32, 00 R7). -/
abbrev Word := BitVec 32

/-- One byte of memory (20 R50). -/
abbrev Byte := BitVec 8

/-- A 16-bit immediate or halfword (30 R81). -/
abbrev Half := BitVec 16

/-- The `retired`, `cycle` and `target` counters (COUNTER_BITS = 64, 00 R7). -/
abbrev Counter := BitVec 64

end Sys2Proof
end

