-- ==== Sys2Proof/Config.lean ====
section
/-! DEFINITION. What is fixed for every machine (the parameters of spec 00 R7 whose value the spec
fixes) and the one family of values the spec leaves free (20 R56). The OPEN parameters of 00 R7 are
arguments of the model and stand in `Machine.Params`. -/

namespace Sys2Proof.Config

/-- ADDR_BITS (00 R7, 20 R50). -/
abbrev addrBits : Nat := 32

/-- PAGE_BITS (00 R7, 20 R52). -/
abbrev pageBits : Nat := 10

/-- OFFSET_BITS (00 R7, 20 R52). -/
abbrev offsetBits : Nat := 12

/-- SET_BITS = ADDR_BITS - PAGE_BITS - OFFSET_BITS (00 R7). -/
abbrev setBits : Nat := addrBits - pageBits - offsetBits

/-- The number of byte addresses, 2^ADDR_BITS = 2^32 (20 R50). -/
abbrev addrSpace : Nat := 4294967296

/-- INSTR_BYTES, the width of an instruction and the step of the program counter (00 R7). -/
abbrev instrBytes : Nat := 4

/-- NREGS, the general registers (00 R7). -/
abbrev generalRegs : Nat := 32

/-- The slots of the register file: the general registers, HI and LO (10 R20, R26). -/
abbrev slotCount : Nat := 34

/-- HI is slot 32 (10 R26). -/
abbrev hi : Nat := 32

/-- LO is slot 33 (10 R26). -/
abbrev lo : Nat := 33

/-- The link register of `jal`, slot 31 (10 R28, 43 R225). -/
abbrev linkReg : Nat := 31

/-- The value of a byte of a mapped chunk that nothing wrote, under MAP_GRANULARITY = page: an
unconstrained value, stable within a run (20 R56). The first argument names the run's draw, the second
is the byte address. A free value: log 9. -/
opaque chunkByte : Nat → Nat → Byte

end Sys2Proof.Config
end

