-- ==== Sys2Proof/Syntax.lean ====
section
/-! DEFINITION. The instructions, one constructor for each of the 51 rows of spec 30 R88 (also
spec/opcode_table.json), with the operands a row uses in the order of its assembler pattern (30 R92);
the three formats (30 R82); and the sections a loader hands over (20 R55).
Bits of a word that its row does not use (30 R83) are no operand (log 14). -/

namespace Sys2Proof

/-- The instruction formats (30 R81, R82). -/
inductive Format where
  | R
  | I
  | J
deriving DecidableEq, Repr

/-- The decoder table's rows (30 R88). `brk` is the row `break` (the word is a keyword of Lean). -/
inductive Instr where
  -- shifts (41 R185 to R190)
  | sll (rd rt : Nat) (shamt : BitVec 5)
  | srl (rd rt : Nat) (shamt : BitVec 5)
  | sra (rd rt : Nat) (shamt : BitVec 5)
  | sllv (rd rt rs : Nat)
  | srlv (rd rt rs : Nat)
  | srav (rd rt rs : Nat)
  -- register jumps (43 R226, R227)
  | jr (rs : Nat)
  | jalr (rd rs : Nat)
  -- system (45 R260, R261)
  | syscall
  | brk
  -- HI/LO moves, multiply, divide (42 R200 to R209)
  | mfhi (rd : Nat)
  | mthi (rs : Nat)
  | mflo (rd : Nat)
  | mtlo (rs : Nat)
  | mult (rs rt : Nat)
  | multu (rs rt : Nat)
  | div (rs rt : Nat)
  | divu (rs rt : Nat)
  -- three-register arithmetic and logic (41 R170 to R192)
  | add (rd rs rt : Nat)
  | addu (rd rs rt : Nat)
  | sub (rd rs rt : Nat)
  | subu (rd rs rt : Nat)
  | and (rd rs rt : Nat)
  | or (rd rs rt : Nat)
  | xor (rd rs rt : Nat)
  | nor (rd rs rt : Nat)
  | slt (rd rs rt : Nat)
  | sltu (rd rs rt : Nat)
  -- branches (43 R220 to R223)
  | beq (rs rt : Nat) (imm : Half)
  | bne (rs rt : Nat) (imm : Half)
  | blez (rs : Nat) (imm : Half)
  | bgtz (rs : Nat) (imm : Half)
  -- register and immediate (41 R174 to R194)
  | addi (rt rs : Nat) (imm : Half)
  | addiu (rt rs : Nat) (imm : Half)
  | slti (rt rs : Nat) (imm : Half)
  | sltiu (rt rs : Nat) (imm : Half)
  | andi (rt rs : Nat) (imm : Half)
  | ori (rt rs : Nat) (imm : Half)
  | xori (rt rs : Nat) (imm : Half)
  | lui (rt : Nat) (imm : Half)
  -- system, opcode 0x1A (45 R262)
  | trap
  -- loads and stores, `op rt, imm(rs)` (44 R240 to R247)
  | lb (rt : Nat) (imm : Half) (rs : Nat)
  | lh (rt : Nat) (imm : Half) (rs : Nat)
  | lw (rt : Nat) (imm : Half) (rs : Nat)
  | lbu (rt : Nat) (imm : Half) (rs : Nat)
  | lhu (rt : Nat) (imm : Half) (rs : Nat)
  | sb (rt : Nat) (imm : Half) (rs : Nat)
  | sh (rt : Nat) (imm : Half) (rs : Nat)
  | sw (rt : Nat) (imm : Half) (rs : Nat)
  -- jumps (43 R224, R225)
  | j (target : BitVec 26)
  | jal (target : BitVec 26)
deriving DecidableEq, Repr

/-- One section of a program image (20 R55). -/
structure Section where
  name : String
  start : Nat
  size : Nat
  content : List Byte
deriving DecidableEq, Repr

end Sys2Proof
end

