-- ==== Sys2Proof/WellFormed.lean ====
section
/-! DEFINITION. What an instruction and a section must satisfy to mean anything: every register number
is one of the 32 general registers (spec 10 R20, 30 R81), and a section's content has its stated size
and lies inside the address space (20 R55). -/

namespace Sys2Proof

/-- The register numbers an instruction names. -/
def Instr.regNums : Instr → List Nat
  | .sll rd rt _ | .srl rd rt _ | .sra rd rt _ => [rd, rt]
  | .sllv rd rt rs | .srlv rd rt rs | .srav rd rt rs => [rd, rt, rs]
  | .jr rs => [rs]
  | .jalr rd rs => [rd, rs]
  | .syscall | .brk | .trap => []
  | .mfhi rd | .mflo rd => [rd]
  | .mthi rs | .mtlo rs => [rs]
  | .mult rs rt | .multu rs rt | .div rs rt | .divu rs rt => [rs, rt]
  | .add rd rs rt | .addu rd rs rt | .sub rd rs rt | .subu rd rs rt | .and rd rs rt
  | .or rd rs rt | .xor rd rs rt | .nor rd rs rt | .slt rd rs rt | .sltu rd rs rt => [rd, rs, rt]
  | .beq rs rt _ | .bne rs rt _ => [rs, rt]
  | .blez rs _ | .bgtz rs _ => [rs]
  | .addi rt rs _ | .addiu rt rs _ | .slti rt rs _ | .sltiu rt rs _ | .andi rt rs _
  | .ori rt rs _ | .xori rt rs _ => [rt, rs]
  | .lui rt _ => [rt]
  | .lb rt _ rs | .lh rt _ rs | .lw rt _ rs | .lbu rt _ rs | .lhu rt _ rs
  | .sb rt _ rs | .sh rt _ rs | .sw rt _ rs => [rt, rs]
  | .j _ | .jal _ => []

/-- Every register number of the instruction is one of 0..31 (10 R20, 30 R81). -/
def Instr.wellFormed (i : Instr) : Bool :=
  i.regNums.all (· < Config.generalRegs)

/-- The section's content has the stated size (20 R55). -/
def Section.sizeMatches (c : Section) : Bool :=
  c.content.length == c.size

/-- The section starts at an address and does not run past 0xFFFFFFFF (20 R55, 70 R301). -/
def Section.inAddressSpace (c : Section) : Bool :=
  decide (c.start < Config.addrSpace ∧ c.start + c.size ≤ Config.addrSpace)

/-- A section the loader may hand over (20 R55, 70 R301). -/
def Section.wellFormed (c : Section) : Bool :=
  c.sizeMatches && c.inAddressSpace

end Sys2Proof
end

