-- ==== Sys2Proof/Decode.lean ====
section
/-! DEFINITION. The decoder (spec 30 R80 to R91), total on any bytes and rejecting by name, and after it
the encoder written from the same field positions (30 R81) and tables (30 R88). -/

namespace Sys2Proof

/-- `w[lo+n-1 : lo]`, read as an unsigned number (00 R8). -/
def bitField (w : Word) (lo n : Nat) : Nat :=
  w.toNat / 2 ^ lo % 2 ^ n

/-- `opcode = word[31:26]` (30 R81). -/
def opcodeOf (w : Word) : Nat := bitField w 26 6

/-- `rs = word[25:21]` (30 R81). -/
def rsOf (w : Word) : Nat := bitField w 21 5

/-- `rt = word[20:16]` (30 R81). -/
def rtOf (w : Word) : Nat := bitField w 16 5

/-- `rd = word[15:11]` (30 R81). -/
def rdOf (w : Word) : Nat := bitField w 11 5

/-- `shamt = word[10:6]` (30 R81, R86). -/
def shamtOf (w : Word) : BitVec 5 := BitVec.ofNat 5 (bitField w 6 5)

/-- `funct = word[5:0]` (30 R81). -/
def functOf (w : Word) : Nat := bitField w 0 6

/-- `imm = word[15:0]` (30 R81). -/
def immOf (w : Word) : Half := BitVec.ofNat 16 (bitField w 0 16)

/-- `target = word[25:0]` (30 R81, R87). -/
def targetOf (w : Word) : BitVec 26 := BitVec.ofNat 26 (bitField w 0 26)

/-- Why a word or a byte string is no instruction. -/
inductive DecodeError where
  /-- opcode 0 and no R-format row for this function code (30 R84, R90) -/
  | noFunctRow (funct : Nat)
  /-- no I- or J-format row for this opcode (30 R84, R90) -/
  | noOpcodeRow (opcode : Nat)
  /-- fewer than the four bytes of a word (30 R80) -/
  | tooShort (bytes : Nat)
deriving DecidableEq, Repr

/-- Format classification by the opcode alone (30 R82). -/
def formatOf (w : Word) : Format :=
  if opcodeOf w = 0 then .R
  else if opcodeOf w = 0x02 ∨ opcodeOf w = 0x03 then .J
  else .I

/-- The R-format rows, keyed by `funct` (30 R88). -/
def rFormatRows : List (Nat × (Word → Instr)) :=
  [ (0x00, fun w => .sll (rdOf w) (rtOf w) (shamtOf w)),
    (0x02, fun w => .srl (rdOf w) (rtOf w) (shamtOf w)),
    (0x03, fun w => .sra (rdOf w) (rtOf w) (shamtOf w)),
    (0x04, fun w => .sllv (rdOf w) (rtOf w) (rsOf w)),
    (0x06, fun w => .srlv (rdOf w) (rtOf w) (rsOf w)),
    (0x07, fun w => .srav (rdOf w) (rtOf w) (rsOf w)),
    (0x08, fun w => .jr (rsOf w)),
    (0x09, fun w => .jalr (rdOf w) (rsOf w)),
    (0x0C, fun _ => .syscall),
    (0x0D, fun _ => .brk),
    (0x10, fun w => .mfhi (rdOf w)),
    (0x11, fun w => .mthi (rsOf w)),
    (0x12, fun w => .mflo (rdOf w)),
    (0x13, fun w => .mtlo (rsOf w)),
    (0x18, fun w => .mult (rsOf w) (rtOf w)),
    (0x19, fun w => .multu (rsOf w) (rtOf w)),
    (0x1A, fun w => .div (rsOf w) (rtOf w)),
    (0x1B, fun w => .divu (rsOf w) (rtOf w)),
    (0x20, fun w => .add (rdOf w) (rsOf w) (rtOf w)),
    (0x21, fun w => .addu (rdOf w) (rsOf w) (rtOf w)),
    (0x22, fun w => .sub (rdOf w) (rsOf w) (rtOf w)),
    (0x23, fun w => .subu (rdOf w) (rsOf w) (rtOf w)),
    (0x24, fun w => .and (rdOf w) (rsOf w) (rtOf w)),
    (0x25, fun w => .or (rdOf w) (rsOf w) (rtOf w)),
    (0x26, fun w => .xor (rdOf w) (rsOf w) (rtOf w)),
    (0x27, fun w => .nor (rdOf w) (rsOf w) (rtOf w)),
    (0x2A, fun w => .slt (rdOf w) (rsOf w) (rtOf w)),
    (0x2B, fun w => .sltu (rdOf w) (rsOf w) (rtOf w)) ]

/-- The I-format rows, keyed by `opcode` (30 R88). -/
def iFormatRows : List (Nat × (Word → Instr)) :=
  [ (0x04, fun w => .beq (rsOf w) (rtOf w) (immOf w)),
    (0x05, fun w => .bne (rsOf w) (rtOf w) (immOf w)),
    (0x06, fun w => .blez (rsOf w) (immOf w)),
    (0x07, fun w => .bgtz (rsOf w) (immOf w)),
    (0x08, fun w => .addi (rtOf w) (rsOf w) (immOf w)),
    (0x09, fun w => .addiu (rtOf w) (rsOf w) (immOf w)),
    (0x0A, fun w => .slti (rtOf w) (rsOf w) (immOf w)),
    (0x0B, fun w => .sltiu (rtOf w) (rsOf w) (immOf w)),
    (0x0C, fun w => .andi (rtOf w) (rsOf w) (immOf w)),
    (0x0D, fun w => .ori (rtOf w) (rsOf w) (immOf w)),
    (0x0E, fun w => .xori (rtOf w) (rsOf w) (immOf w)),
    (0x0F, fun w => .lui (rtOf w) (immOf w)),
    (0x1A, fun _ => .trap),
    (0x20, fun w => .lb (rtOf w) (immOf w) (rsOf w)),
    (0x21, fun w => .lh (rtOf w) (immOf w) (rsOf w)),
    (0x23, fun w => .lw (rtOf w) (immOf w) (rsOf w)),
    (0x24, fun w => .lbu (rtOf w) (immOf w) (rsOf w)),
    (0x25, fun w => .lhu (rtOf w) (immOf w) (rsOf w)),
    (0x28, fun w => .sb (rtOf w) (immOf w) (rsOf w)),
    (0x29, fun w => .sh (rtOf w) (immOf w) (rsOf w)),
    (0x2B, fun w => .sw (rtOf w) (immOf w) (rsOf w)) ]

/-- The J-format rows, keyed by `opcode` (30 R88). -/
def jFormatRows : List (Nat × (Word → Instr)) :=
  [ (0x02, fun w => .j (targetOf w)),
    (0x03, fun w => .jal (targetOf w)) ]

/-- Operation lookup (30 R83): by `funct` in the R-format rows, by `opcode` in the others; a word
without a row is refused by name (30 R84). -/
def decodeWord (w : Word) : Except DecodeError Instr :=
  match formatOf w with
  | .R =>
    match rFormatRows.lookup (functOf w) with
    | some build => .ok (build w)
    | none => .error (.noFunctRow (functOf w))
  | .I =>
    match iFormatRows.lookup (opcodeOf w) with
    | some build => .ok (build w)
    | none => .error (.noOpcodeRow (opcodeOf w))
  | .J =>
    match jFormatRows.lookup (opcodeOf w) with
    | some build => .ok (build w)
    | none => .error (.noOpcodeRow (opcodeOf w))

/-- The 32-bit word of four bytes, the first at the lowest address (20 R57, 30 R80). -/
def wordOfBytes (b0 b1 b2 b3 : Byte) : Word :=
  BitVec.ofNat 32 (b0.toNat + 256 * (b1.toNat + 256 * (b2.toNat + 256 * b3.toNat)))

/-- The four bytes of a word in memory order (20 R57). -/
def bytesOfWord (w : Word) : List Byte :=
  [BitVec.ofNat 8 (bitField w 0 8), BitVec.ofNat 8 (bitField w 8 8),
   BitVec.ofNat 8 (bitField w 16 8), BitVec.ofNat 8 (bitField w 24 8)]

/-- The instruction at the head of a byte string, with the bytes after it (30 R80). -/
def decodeBytes : List Byte → Except DecodeError (Instr × List Byte)
  | b0 :: b1 :: b2 :: b3 :: rest =>
    match decodeWord (wordOfBytes b0 b1 b2 b3) with
    | .ok i => .ok (i, rest)
    | .error e => .error e
  | short => .error (.tooShort short.length)

/-- The instruction read from a word of the opcode table: its bits are laid out as bytes in memory
order and given to the decoder. -/
def decodeTableWord (nbits w : Nat) : Option Instr :=
  match decodeBytes (bytesOfWord (BitVec.ofNat 32 (w % 2 ^ nbits))) with
  | .ok (i, _) => some i
  | .error _ => none

/-- An R-format word (30 R81). -/
def rWord (rs rt rd : Nat) (shamt : Nat) (funct : Nat) : Word :=
  BitVec.ofNat 32
    (rs % 32 * 2 ^ 21 + rt % 32 * 2 ^ 16 + rd % 32 * 2 ^ 11 + shamt % 32 * 2 ^ 6 + funct % 64)

/-- An I-format word (30 R81). -/
def iWord (opcode : Nat) (rs rt : Nat) (imm : Half) : Word :=
  BitVec.ofNat 32 (opcode % 64 * 2 ^ 26 + rs % 32 * 2 ^ 21 + rt % 32 * 2 ^ 16 + imm.toNat)

/-- A J-format word (30 R81). -/
def jWord (opcode : Nat) (target : BitVec 26) : Word :=
  BitVec.ofNat 32 (opcode % 64 * 2 ^ 26 + target.toNat)

/-- The encoder (30 R81, R88). Fields a row does not use are written as 0. -/
def encode : Instr → Word
  | .sll rd rt sh => rWord 0 rt rd sh.toNat 0x00
  | .srl rd rt sh => rWord 0 rt rd sh.toNat 0x02
  | .sra rd rt sh => rWord 0 rt rd sh.toNat 0x03
  | .sllv rd rt rs => rWord rs rt rd 0 0x04
  | .srlv rd rt rs => rWord rs rt rd 0 0x06
  | .srav rd rt rs => rWord rs rt rd 0 0x07
  | .jr rs => rWord rs 0 0 0 0x08
  | .jalr rd rs => rWord rs 0 rd 0 0x09
  | .syscall => rWord 0 0 0 0 0x0C
  | .brk => rWord 0 0 0 0 0x0D
  | .mfhi rd => rWord 0 0 rd 0 0x10
  | .mthi rs => rWord rs 0 0 0 0x11
  | .mflo rd => rWord 0 0 rd 0 0x12
  | .mtlo rs => rWord rs 0 0 0 0x13
  | .mult rs rt => rWord rs rt 0 0 0x18
  | .multu rs rt => rWord rs rt 0 0 0x19
  | .div rs rt => rWord rs rt 0 0 0x1A
  | .divu rs rt => rWord rs rt 0 0 0x1B
  | .add rd rs rt => rWord rs rt rd 0 0x20
  | .addu rd rs rt => rWord rs rt rd 0 0x21
  | .sub rd rs rt => rWord rs rt rd 0 0x22
  | .subu rd rs rt => rWord rs rt rd 0 0x23
  | .and rd rs rt => rWord rs rt rd 0 0x24
  | .or rd rs rt => rWord rs rt rd 0 0x25
  | .xor rd rs rt => rWord rs rt rd 0 0x26
  | .nor rd rs rt => rWord rs rt rd 0 0x27
  | .slt rd rs rt => rWord rs rt rd 0 0x2A
  | .sltu rd rs rt => rWord rs rt rd 0 0x2B
  | .beq rs rt imm => iWord 0x04 rs rt imm
  | .bne rs rt imm => iWord 0x05 rs rt imm
  | .blez rs imm => iWord 0x06 rs 0 imm
  | .bgtz rs imm => iWord 0x07 rs 0 imm
  | .addi rt rs imm => iWord 0x08 rs rt imm
  | .addiu rt rs imm => iWord 0x09 rs rt imm
  | .slti rt rs imm => iWord 0x0A rs rt imm
  | .sltiu rt rs imm => iWord 0x0B rs rt imm
  | .andi rt rs imm => iWord 0x0C rs rt imm
  | .ori rt rs imm => iWord 0x0D rs rt imm
  | .xori rt rs imm => iWord 0x0E rs rt imm
  | .lui rt imm => iWord 0x0F 0 rt imm
  | .trap => iWord 0x1A 0 0 0
  | .lb rt imm rs => iWord 0x20 rs rt imm
  | .lh rt imm rs => iWord 0x21 rs rt imm
  | .lw rt imm rs => iWord 0x23 rs rt imm
  | .lbu rt imm rs => iWord 0x24 rs rt imm
  | .lhu rt imm rs => iWord 0x25 rs rt imm
  | .sb rt imm rs => iWord 0x28 rs rt imm
  | .sh rt imm rs => iWord 0x29 rs rt imm
  | .sw rt imm rs => iWord 0x2B rs rt imm
  | .j target => jWord 0x02 target
  | .jal target => jWord 0x03 target

/-- The bytes of an instruction in memory order (30 R80). -/
def encodeBytes (i : Instr) : List Byte :=
  bytesOfWord (encode i)

end Sys2Proof
end

