-- ==== Sys2Proof/Machine/Params.lean ====
section
/-! DEFINITION. The parameters of a run (spec 00 R7): every parameter the spec marks OPEN, which "the
model takes as an argument", the reset pc the loader supplies, and the two arguments the model adds for
its environment (20 R68, R56). They are held in `State.params`, are fixed for a run (40 R129), and no
step changes them (log 19). -/

namespace Sys2Proof.Machine

/-- STALL_LATENCY, 1 (default) or 0 (92 D4, 40 R113). -/
inductive StallLatency where
  | zero
  | one
deriving DecidableEq, Repr

/-- OVERFLOW_MODE (92 D9, 41 R196). -/
inductive OverflowMode where
  | fatal
  | wrap
deriving DecidableEq, Repr

/-- SYS_MODE (92 D11, 45 R260 to R263). -/
inductive SysMode where
  | fatal
  | nop
deriving DecidableEq, Repr

/-- MAP_GRANULARITY (92 D13, 20 R51, R56). -/
inductive MapGranularity where
  | byte
  | page
deriving DecidableEq, Repr

/-- The parameters of a run (00 R7). -/
structure Params where
  stallLatency : StallLatency
  /-- WAW_INTERLOCK (92 D6, 40 R117) -/
  wawInterlock : Bool
  overflowMode : OverflowMode
  sysMode : SysMode
  /-- LINK_OFFSET: the link value is `pc + LINK_OFFSET` (92 D12, 43 R225) -/
  linkOffset : Word
  mapGranularity : MapGranularity
  /-- RF_INIT: the slots that hold a value at reset, with the value; a slot not listed is unwritten
  (92 D8, 10 R27) -/
  rfInit : List (Nat × Word)
  /-- TEXT_BASE, the reset pc, from the loader (20 R55) -/
  textBase : Word
  /-- the byte addresses the environment cannot store when an access newly maps them (20 R68; log 11) -/
  unstorable : List Nat
  /-- which draw of the unconstrained bytes of 20 R56 this run has (log 9) -/
  drawRun : Nat
deriving DecidableEq, Repr

/-- The default of every parameter (00 R7), with the reset pc of the spec's test programs
(95, start state; log 6). -/
def Params.specDefault : Params where
  stallLatency := .one
  wawInterlock := false
  overflowMode := .fatal
  sysMode := .fatal
  linkOffset := 4#32
  mapGranularity := .byte
  rfInit := []
  textBase := 0x00400000#32
  unstorable := []
  drawRun := 0

/-- RF_INIT = all 0: the setting 92 D8 gives as its example ("A model may supply values instead (for
example all 0)"). -/
def rfInitZero : List (Nat × Word) :=
  (List.range Config.slotCount).map (fun i => (i, 0#32))

/-- The parameters `State.reset` uses: the defaults, with every register at 0 (log 4). -/
def Params.atReset : Params :=
  { Params.specDefault with rfInit := rfInitZero }

/-- The retire target `State.reset` uses (an input of each run, 10 R32; log 7). -/
def targetAtReset : Counter :=
  BitVec.allOnes 64

end Sys2Proof.Machine
end

