-- ==== Sys2Proof/Machine/State.lean ====
section
/-! DEFINITION. The state of the block as plain data (spec 10_state.md, with the ports of 40 R111, the
fatal record of 60 R272 and the trace output of 40 R126), the reasons a step could stop, and the state
after reset (10 R43, 70 R300). INVENTORY.md lists every field with its rule. -/

namespace Sys2Proof.Machine

/-- The stage handlers of a cycle, in their order (40 R110). `loader` is no handler of a cycle: it names
the loader in the one Fatal that can be raised before reset completes (60 R271, code 11). -/
inductive Stage where
  | writeback
  | decode
  | fetch
  | execute
  | memory
  | loader
deriving DecidableEq, Repr

/-- The causes of a Fatal, in the order of their codes (60 R271). -/
inductive Cause where
  | decodeFailure
  | unmappedFetch
  | unmappedLoad
  | addressOutOfRange
  | pendingWriteViolation
  | uninitializedRegister
  | arithmeticOverflow
  | divideByZero
  | divideOverflow
  | systemInstruction
  | allocationFailure
deriving DecidableEq, Repr

/-- The `info` of a Fatal (60 R271): the word and its pc, a byte address (which may be 2^32 or more),
a slot number, or the pc and mnemonic of an instruction. -/
inductive Info where
  | word (word pc : Word)
  | address (a : Nat)
  | slot (i : Nat)
  | instr (pc : Word) (mnemonic : String)
deriving DecidableEq, Repr

/-- What a failed check hands to `raise` (00 R10): the cause and its info. -/
structure Stop where
  cause : Cause
  info : Info
deriving DecidableEq, Repr

/-- The fatal record (60 R272). -/
structure FatalRecord where
  cause : Cause
  info : Info
  cycle : Counter
  stage : Stage
deriving DecidableEq, Repr

/-- A fetched word with its fetch address: the payload of F2D and the contents of the hold register
(10 R34, R35). -/
structure Fetched where
  word : Word
  pc : Word
deriving DecidableEq, Repr

/-- The instruction record (10 R38). The fields that decode sets from the word alone (`format`, `src1`,
`src2`, `dst`, `dst2`, `shamt`, `imm`, `target`, `is_jump`, `is_load`, `is_store`) are functions of
`op` and stand in Machine/Operands.lean (log 13). -/
structure InstrRecord where
  word : Word
  pc : Word
  op : Instr
  v1 : Word
  v2 : Word
  result : Word
  result2 : Word
  addr : Word
  width : Nat
  newPc : Word
deriving DecidableEq, Repr

/-- The null instruction: the record of the word 0 at pc 0 (10 R39). It stands in the trace only. -/
def InstrRecord.null : InstrRecord where
  word := 0#32
  pc := 0#32
  op := .sll 0 0 0#5
  v1 := 0#32
  v2 := 0#32
  result := 0#32
  result2 := 0#32
  addr := 0#32
  width := 0
  newPc := 0#32

/-- A port of latency at most 1: the value its reader sees in this cycle and the value written in this
cycle (40 R111, R114). -/
structure Port (α : Type) where
  out : Option α
  written : Option α
deriving DecidableEq, Repr

/-- A port that holds nothing (10 R35, R36). -/
def Port.empty {α : Type} : Port α where
  out := none
  written := none

/-- One slot of the register file: its value, whether it holds one (10 R27) and its write-pending bit
(10 R20). -/
structure Slot where
  value : Word
  written : Bool
  pending : Bool
deriving DecidableEq, Repr

/-- The trace of one cycle: what each stage held (40 R126). -/
structure Trace where
  fetch : Option Fetched
  decode : InstrRecord
  execute : InstrRecord
  memory : InstrRecord
  writeback : InstrRecord
deriving DecidableEq, Repr

/-- A trace of bubbles: no fetch, and the null instruction in every other stage (40 R121, R126). -/
def Trace.bubbles : Trace where
  fetch := none
  decode := InstrRecord.null
  execute := InstrRecord.null
  memory := InstrRecord.null
  writeback := InstrRecord.null

/-- Memory: the mapped bytes something wrote, addresses strictly rising (20 R51). An address that is not
listed is unmapped. -/
abbrev Memory := List Host.Cell

/-- The state of the block (10_state.md). -/
structure State where
  /-- slots 0..33 with their pending bits (10 R20 to R27) -/
  rf : Vector Slot 34
  /-- 10 R29 -/
  pc : Word
  /-- 10 R30 -/
  pcValid : Bool
  /-- 10 R31 -/
  retired : Counter
  /-- 10 R32 -/
  target : Counter
  /-- 10 R33 -/
  cycle : Counter
  /-- 10 R34 -/
  hold : Option Fetched
  /-- 10 R35: fetch to decode -/
  f2d : Port Fetched
  /-- 10 R35: decode to execute -/
  d2e : Port InstrRecord
  /-- 10 R35: execute to memory -/
  e2m : Port InstrRecord
  /-- 10 R35: memory to writeback -/
  m2w : Port InstrRecord
  /-- 10 R36: decode stalls fetch -/
  d2f : Port Bool
  /-- 10 R36: execute stalls decode -/
  e2d : Port Bool
  /-- 10 R36: memory stalls execute -/
  m2e : Port Bool
  /-- 10 R36: writeback stalls memory -/
  w2m : Port Bool
  /-- the fatal status (10 R37) -/
  fatal : Option FatalRecord
  /-- 20 R50, R51 -/
  mem : Memory
  /-- the trace output of the last cycle (40 R126, R129) -/
  trace : Trace
  /-- the handler that is running; between cycles the first one (40 R110; log 3) -/
  stage : Stage
  /-- the parameters of the run (00 R7; log 19) -/
  params : Params
deriving DecidableEq, Repr

/-- The reasons a step could stop WITHOUT a state. There is none: every error of this block is a Fatal,
which the spec describes as a state (10 R37, 60 R272), so no step and no meaning answers a fault
(log 1). Safe: nothing is lost, the fatal record says what a fault would. -/
inductive Fault where
deriving DecidableEq, Repr

/-- The reasons an input is refused. -/
inductive Refusal where
  /-- Raised by `exec` for an instruction without a meaning. No arm uses it. Safe. -/
  | notModelled (mnemonic : String)
  /-- Raised by the loader (`boot`) for an image with no section named `.text`: "The block refuses it:
  reset does not complete" (70 R301). Safe. -/
  | noTextSection
  /-- Raised by the loader (`boot`) for a section that runs past 0xFFFFFFFF (20 R55, 70 R301), or whose
  content has not its stated size (log 16). Safe. -/
  | malformedSection (name : String)
deriving DecidableEq, Repr

/-- What a step, a handler or a meaning answers. -/
abbrev Result := Host.Outcome State Fault Refusal

/-- Slot `i` at reset: the value RF_INIT gives it, or unwritten; never pending (10 R27, R43). The value
behind an unwritten slot is 0 (log 5). -/
def slotAtReset (rfInit : List (Nat × Word)) (i : Nat) : Slot :=
  match rfInit.lookup i with
  | some v => { value := v, written := true, pending := false }
  | none => { value := 0#32, written := false, pending := false }

/-- The register file at reset (10 R43). -/
def rfAtReset (rfInit : List (Nat × Word)) : Vector Slot 34 :=
  ⟨((List.range 34).map (slotAtReset rfInit)).toArray, by simp⟩

/-- Steps 3 and 4 of the reset sequence (70 R300): every piece of state at the value of 10 R43, for the
parameters of the run, its retire target and the loaded memory. -/
def State.resetWith (params : Params) (target : Counter) (mem : Memory) : State where
  rf := rfAtReset params.rfInit
  pc := params.textBase
  pcValid := true
  retired := 0#64
  target := target
  cycle := 0#64
  hold := none
  f2d := Port.empty
  d2e := Port.empty
  e2m := Port.empty
  m2w := Port.empty
  d2f := Port.empty
  e2d := Port.empty
  m2e := Port.empty
  w2m := Port.empty
  fatal := none
  mem := mem
  trace := Trace.bubbles
  stage := .writeback
  params := params

/-- The machine right after reset with nothing loaded (10 R43, 70 R300). Registers, TEXT_BASE and the
retire target: log 4, log 6, log 7. -/
def State.reset : State :=
  State.resetWith Params.atReset targetAtReset []

end Sys2Proof.Machine
end

