-- ==== Sys2Proof/Machine/Operands.lean ====
section
/-! DEFINITION. Operands: the operand columns of the decoder table (spec 30 R88), the predicates of
30 R89, the operand fields of an instruction record (10 R38), the extensions of immediates (30 R85),
the effective address (44 R248) and the jump and branch targets (30 R87, 43 R220). -/

namespace Sys2Proof.Machine

/-- The operand columns of a row of the decoder table (30 R88); 0 where the table has `-`. -/
structure OperandRow where
  src1 : Nat := 0
  src2 : Nat := 0
  dst : Nat := 0
  dst2 : Nat := 0
deriving DecidableEq, Repr

end Sys2Proof.Machine

namespace Sys2Proof

/-- The operand columns of the decoder table, row by row (30 R88). -/
def Instr.row : Instr → Machine.OperandRow
  | .sll rd rt _ => { src1 := rt, dst := rd }
  | .srl rd rt _ => { src1 := rt, dst := rd }
  | .sra rd rt _ => { src1 := rt, dst := rd }
  | .sllv rd rt rs => { src1 := rt, src2 := rs, dst := rd }
  | .srlv rd rt rs => { src1 := rt, src2 := rs, dst := rd }
  | .srav rd rt rs => { src1 := rt, src2 := rs, dst := rd }
  | .jr rs => { src1 := rs }
  | .jalr rd rs => { src1 := rs, dst := rd }
  | .syscall => {}
  | .brk => {}
  | .mfhi rd => { src1 := Config.hi, dst := rd }
  | .mthi rs => { src1 := rs, dst := Config.hi }
  | .mflo rd => { src1 := Config.lo, dst := rd }
  | .mtlo rs => { src1 := rs, dst := Config.lo }
  | .mult rs rt => { src1 := rs, src2 := rt, dst := Config.lo, dst2 := Config.hi }
  | .multu rs rt => { src1 := rs, src2 := rt, dst := Config.lo, dst2 := Config.hi }
  | .div rs rt => { src1 := rs, src2 := rt, dst := Config.lo, dst2 := Config.hi }
  | .divu rs rt => { src1 := rs, src2 := rt, dst := Config.lo, dst2 := Config.hi }
  | .add rd rs rt => { src1 := rs, src2 := rt, dst := rd }
  | .addu rd rs rt => { src1 := rs, src2 := rt, dst := rd }
  | .sub rd rs rt => { src1 := rs, src2 := rt, dst := rd }
  | .subu rd rs rt => { src1 := rs, src2 := rt, dst := rd }
  | .and rd rs rt => { src1 := rs, src2 := rt, dst := rd }
  | .or rd rs rt => { src1 := rs, src2 := rt, dst := rd }
  | .xor rd rs rt => { src1 := rs, src2 := rt, dst := rd }
  | .nor rd rs rt => { src1 := rs, src2 := rt, dst := rd }
  | .slt rd rs rt => { src1 := rs, src2 := rt, dst := rd }
  | .sltu rd rs rt => { src1 := rs, src2 := rt, dst := rd }
  | .beq rs rt _ => { src1 := rs, src2 := rt }
  | .bne rs rt _ => { src1 := rs, src2 := rt }
  | .blez rs _ => { src1 := rs }
  | .bgtz rs _ => { src1 := rs }
  | .addi rt rs _ => { src1 := rs, dst := rt }
  | .addiu rt rs _ => { src1 := rs, dst := rt }
  | .slti rt rs _ => { src1 := rs, dst := rt }
  | .sltiu rt rs _ => { src1 := rs, dst := rt }
  | .andi rt rs _ => { src1 := rs, dst := rt }
  | .ori rt rs _ => { src1 := rs, dst := rt }
  | .xori rt rs _ => { src1 := rs, dst := rt }
  | .lui rt _ => { dst := rt }
  | .trap => {}
  | .lb rt _ rs => { src1 := rs, dst := rt }
  | .lh rt _ rs => { src1 := rs, dst := rt }
  | .lw rt _ rs => { src1 := rs, dst := rt }
  | .lbu rt _ rs => { src1 := rs, dst := rt }
  | .lhu rt _ rs => { src1 := rs, dst := rt }
  | .sb rt _ rs => { src1 := rs, src2 := rt }
  | .sh rt _ rs => { src1 := rs, src2 := rt }
  | .sw rt _ rs => { src1 := rs, src2 := rt }
  | .j _ => {}
  | .jal _ => { dst := Config.linkReg }

/-- `src1` of the record (10 R38, 30 R88). -/
def Instr.src1 (i : Instr) : Nat := i.row.src1

/-- `src2` of the record (10 R38, 30 R88). -/
def Instr.src2 (i : Instr) : Nat := i.row.src2

/-- `dst` of the record (10 R38, 30 R88). -/
def Instr.dst (i : Instr) : Nat := i.row.dst

/-- `dst2` of the record, used by multiply and divide only (10 R38, 30 R88). -/
def Instr.dst2 (i : Instr) : Nat := i.row.dst2

/-- `is_jump` (30 R89): conditional branches are jumps too. -/
def Instr.isJump : Instr → Bool
  | .beq _ _ _ | .bne _ _ _ | .blez _ _ | .bgtz _ _ | .j _ | .jal _ | .jr _ | .jalr _ _ => true
  | .sll _ _ _ | .srl _ _ _ | .sra _ _ _ | .sllv _ _ _ | .srlv _ _ _ | .srav _ _ _
  | .syscall | .brk | .trap | .mfhi _ | .mthi _ | .mflo _ | .mtlo _
  | .mult _ _ | .multu _ _ | .div _ _ | .divu _ _
  | .add _ _ _ | .addu _ _ _ | .sub _ _ _ | .subu _ _ _ | .and _ _ _ | .or _ _ _ | .xor _ _ _
  | .nor _ _ _ | .slt _ _ _ | .sltu _ _ _
  | .addi _ _ _ | .addiu _ _ _ | .slti _ _ _ | .sltiu _ _ _ | .andi _ _ _ | .ori _ _ _
  | .xori _ _ _ | .lui _ _
  | .lb _ _ _ | .lh _ _ _ | .lw _ _ _ | .lbu _ _ _ | .lhu _ _ _
  | .sb _ _ _ | .sh _ _ _ | .sw _ _ _ => false

/-- `is_load` (30 R89). -/
def Instr.isLoad : Instr → Bool
  | .lb _ _ _ | .lh _ _ _ | .lw _ _ _ | .lbu _ _ _ | .lhu _ _ _ => true
  | .sll _ _ _ | .srl _ _ _ | .sra _ _ _ | .sllv _ _ _ | .srlv _ _ _ | .srav _ _ _
  | .jr _ | .jalr _ _ | .syscall | .brk | .trap | .mfhi _ | .mthi _ | .mflo _ | .mtlo _
  | .mult _ _ | .multu _ _ | .div _ _ | .divu _ _
  | .add _ _ _ | .addu _ _ _ | .sub _ _ _ | .subu _ _ _ | .and _ _ _ | .or _ _ _ | .xor _ _ _
  | .nor _ _ _ | .slt _ _ _ | .sltu _ _ _ | .beq _ _ _ | .bne _ _ _ | .blez _ _ | .bgtz _ _
  | .addi _ _ _ | .addiu _ _ _ | .slti _ _ _ | .sltiu _ _ _ | .andi _ _ _ | .ori _ _ _
  | .xori _ _ _ | .lui _ _ | .sb _ _ _ | .sh _ _ _ | .sw _ _ _ | .j _ | .jal _ => false

/-- `is_store` (30 R89). -/
def Instr.isStore : Instr → Bool
  | .sb _ _ _ | .sh _ _ _ | .sw _ _ _ => true
  | .sll _ _ _ | .srl _ _ _ | .sra _ _ _ | .sllv _ _ _ | .srlv _ _ _ | .srav _ _ _
  | .jr _ | .jalr _ _ | .syscall | .brk | .trap | .mfhi _ | .mthi _ | .mflo _ | .mtlo _
  | .mult _ _ | .multu _ _ | .div _ _ | .divu _ _
  | .add _ _ _ | .addu _ _ _ | .sub _ _ _ | .subu _ _ _ | .and _ _ _ | .or _ _ _ | .xor _ _ _
  | .nor _ _ _ | .slt _ _ _ | .sltu _ _ _ | .beq _ _ _ | .bne _ _ _ | .blez _ _ | .bgtz _ _
  | .addi _ _ _ | .addiu _ _ _ | .slti _ _ _ | .sltiu _ _ _ | .andi _ _ _ | .ori _ _ _
  | .xori _ _ _ | .lui _ _ | .lb _ _ _ | .lh _ _ _ | .lw _ _ _ | .lbu _ _ _ | .lhu _ _ _
  | .j _ | .jal _ => false

end Sys2Proof

namespace Sys2Proof.Machine

/-- `format` of a record: the format of its word (10 R38, 30 R82). -/
def InstrRecord.format (r : InstrRecord) : Format := formatOf r.word

/-- `src1` of a record (10 R38). -/
def InstrRecord.src1 (r : InstrRecord) : Nat := r.op.src1

/-- `src2` of a record (10 R38). -/
def InstrRecord.src2 (r : InstrRecord) : Nat := r.op.src2

/-- `dst` of a record (10 R38). -/
def InstrRecord.dst (r : InstrRecord) : Nat := r.op.dst

/-- `dst2` of a record (10 R38). -/
def InstrRecord.dst2 (r : InstrRecord) : Nat := r.op.dst2

/-- `shamt` of a record: the R-format field (10 R38, 30 R86). -/
def InstrRecord.shamt (r : InstrRecord) : BitVec 5 :=
  if r.format = .R then shamtOf r.word else 0#5

/-- `imm` of a record: the I-format field, unextended (10 R38, 30 R85). -/
def InstrRecord.imm (r : InstrRecord) : Half :=
  if r.format = .I then immOf r.word else 0#16

/-- `target` of a record: the J-format field (10 R38, 30 R87). -/
def InstrRecord.target (r : InstrRecord) : BitVec 26 :=
  if r.format = .J then targetOf r.word else 0#26

/-- `is_jump` of a record (10 R38, 30 R89). -/
def InstrRecord.isJump (r : InstrRecord) : Bool := r.op.isJump

/-- `is_load` of a record (10 R38, 30 R89). -/
def InstrRecord.isLoad (r : InstrRecord) : Bool := r.op.isLoad

/-- `is_store` of a record (10 R38, 30 R89). -/
def InstrRecord.isStore (r : InstrRecord) : Bool := r.op.isStore

/-- The record the decode stage makes of a fetched word: the fields no stage has set yet are 0
(10 R38). -/
def recordOf (i : Instr) (f : Fetched) : InstrRecord :=
  { InstrRecord.null with word := f.word, pc := f.pc, op := i }

/-- `sext_16` (00 R9, 30 R85). -/
def sext16 (v : Half) : Word := v.signExtend 32

/-- `zext_16` (00 R9, 30 R85). -/
def zext16 (v : Half) : Word := v.setWidth 32

/-- `sext_8` (00 R9). -/
def sext8 (v : Byte) : Word := v.signExtend 32

/-- `zext_8` (00 R9). -/
def zext8 (v : Byte) : Word := v.setWidth 32

/-- `imm ++ 0x0000`, the immediate of `lui` (30 R85). -/
def upperImm (v : Half) : Word := v ++ 0#16

/-- The effective address of a load or store: base plus signed displacement, modulo 2^32 (44 R248). -/
def effAddr (base : Word) (imm : Half) : Word := base + sext16 imm

/-- `pc + 4`, the address of the next word (10 R29, modulo 2^32). -/
def nextPc (pc : Word) : Word := pc + BitVec.ofNat 32 Config.instrBytes

/-- The target of a taken branch: `pc + 4 + (sext_16(imm) << 2)` (43 R220). -/
def branchTarget (pc : Word) (imm : Half) : Word := nextPc pc + (sext16 imm <<< 2)

/-- The target of `j` and `jal`: `(pc + 4)[31:28] ++ target ++ 0b00` (30 R87). -/
def jumpTarget (pc : Word) (target : BitVec 26) : Word :=
  (nextPc pc).extractLsb' 28 4 ++ target ++ 0#2

/-- The amount of a variable shift, `v2[4:0]` (30 R86, 92 D27). -/
def variableShift (v : Word) : Nat := v.toNat % 32

end Sys2Proof.Machine
end

