-- ==== Sys2Proof/Machine/Flags.lean ====
section
/-! DEFINITION. The block has no flags (spec 10 R40). What stands here is what takes their place: the
comparison results that go to a register (41 R191 to R196) and the signed-overflow check of `add`,
`addi` and `sub` (41 R170, R172, R174, R196). -/

namespace Sys2Proof.Machine

/-- A comparison returns exactly 0 or 1 (41 R196). -/
def boolWord (b : Bool) : Word := if b then 1#32 else 0#32

/-- `signed(a) < signed(b)` (00 R9, 41 R191). -/
def signedLess (a b : Word) : Bool := decide (a.toInt < b.toInt)

/-- `unsigned(a) < unsigned(b)` (00 R9, 41 R192). -/
def unsignedLess (a b : Word) : Bool := decide (a.toNat < b.toNat)

/-- The exact result lies in [-2^31, 2^31) (41 R170, R196). -/
def fitsSigned (t : Int) : Bool := decide (-2 ^ 31 ≤ t ∧ t < 2 ^ 31)

/-- The result of `add`, `addi` and `sub` from the exact sum or difference (41 R170, R172, R174):
outside the signed range it is a Fatal under OVERFLOW_MODE = fatal, and wraps otherwise. -/
def overflowChecked (mode : OverflowMode) (pc : Word) (mnemonic : String) (t : Int) :
    Except Stop Word :=
  if fitsSigned t = false ∧ mode = .fatal then
    .error { cause := .arithmeticOverflow, info := .instr pc mnemonic }
  else
    .ok (BitVec.ofInt 32 t)

end Sys2Proof.Machine
end

