-- ==== Sys2Proof/Machine/Ops.lean ====
section
/-! DEFINITION. The named operations over the state: raising a Fatal (spec 60 R270 to R272), the
register file (10 R20 to R27), memory (20 R50 to R59) and the ports (40 R111 to R114). -/

namespace Sys2Proof.Machine

/-! ### Raising a Fatal -/

/-- The code of a cause, the spec's own numbering (60 R271). -/
def Cause.code : Cause → Nat
  | .decodeFailure => 1
  | .unmappedFetch => 2
  | .unmappedLoad => 3
  | .addressOutOfRange => 4
  | .pendingWriteViolation => 5
  | .uninitializedRegister => 6
  | .arithmeticOverflow => 7
  | .divideByZero => 8
  | .divideOverflow => 9
  | .systemInstruction => 10
  | .allocationFailure => 11

/-- `raise Fatal(cause, info)` (00 R10, 60 R272): the fatal status takes the record, with the cycle and
the stage that are running, and nothing else changes. A record that is set stays (10 R37). There is no
return from it but reset (60 R275). -/
def State.raise (s : State) (stop : Stop) : State :=
  match s.fatal with
  | some _ => s
  | none =>
    { s with fatal := some { cause := stop.cause, info := stop.info, cycle := s.cycle, stage := s.stage } }

/-- The run has ended with `retired = target` and no Fatal (40 R125, 60 R282): the `done` output. The
test is the spec's `retired < target`, negated. -/
def State.isDone (s : State) : Bool :=
  s.fatal.isNone && !decide (s.retired.toNat < s.target.toNat)

/-- A cycle may start: `retired < target` and no Fatal (40 R125). -/
def State.isRunning (s : State) : Bool :=
  s.fatal.isNone && decide (s.retired.toNat < s.target.toNat)

/-! ### The register file -/

/-- Slot `i` as stored. A number that is no slot reads as an empty slot (log 18). -/
def State.slot (s : State) (i : Nat) : Slot :=
  s.rf.toList.getD i { value := 0#32, written := true, pending := false }

/-- `x[i]` (10 R22): the pending bit is not consulted; slot 0 reads 0 (10 R21). -/
def State.readSlot (s : State) (i : Nat) : Word :=
  if i = 0 then 0#32 else (s.slot i).value

/-- Slot `i` holds a value (10 R27); slot 0 always does (10 R21). -/
def State.isWritten (s : State) (i : Nat) : Bool :=
  if i = 0 then true else (s.slot i).written

/-- `pend[i]` (10 R20); slot 0 is never pending (10 R21). -/
def State.isPending (s : State) (i : Nat) : Bool :=
  if i = 0 then false else (s.slot i).pending

/-- `check(i)` (10 R23). -/
def State.check (s : State) (i : Nat) : Bool := !s.isPending i

/-- `invalidate(i)` (10 R24), a no-op for slot 0. -/
def State.invalidate (s : State) (i : Nat) : State :=
  if i = 0 then s
  else { s with rf := s.rf.setIfInBounds i { s.slot i with pending := true } }

/-- The effect of `write(i, v)` on a pending slot (10 R25): `x[i] <- v`, `pend[i] <- 0`; a no-op for slot 0
(10 R21). The first write gives an unwritten slot its value (10 R27). -/
def State.setSlot (s : State) (i : Nat) (v : Word) : State :=
  if i = 0 then s
  else { s with rf := s.rf.setIfInBounds i { value := v, written := true, pending := false } }

/-- The check of `write(i, v)` (10 R25): a slot other than 0 must be pending. -/
def State.writeCheck (s : State) (i : Nat) : Option Stop :=
  if i ≠ 0 ∧ s.isPending i = false then
    some { cause := .pendingWriteViolation, info := .slot i }
  else none

/-- The check of a source (40 R116 step 5): an unwritten slot has no value to read. -/
def State.sourceCheck (s : State) (i : Nat) : Option Stop :=
  if s.isWritten i then none
  else some { cause := .uninitializedRegister, info := .slot i }

/-! ### Memory -/

/-- `addr[OFFSET_BITS-1:0]` (20 R52). -/
def offsetOf (a : Nat) : Nat := a % 2 ^ Config.offsetBits

/-- `addr[OFFSET_BITS+PAGE_BITS-1:OFFSET_BITS]` (20 R52). -/
def pageOf (a : Nat) : Nat := a / 2 ^ Config.offsetBits % 2 ^ Config.pageBits

/-- `addr[31:22]` (20 R52). -/
def setOf (a : Nat) : Nat := a / 2 ^ (Config.offsetBits + Config.pageBits)

/-- Two bytes lie in the same (set, page) chunk (20 R52, R56). -/
def sameChunk (a b : Nat) : Bool := setOf a == setOf b && pageOf a == pageOf b

/-- The byte written at an address, if any (20 R51). -/
def lookupByte : Memory → Nat → Option Byte
  | [], _ => none
  | (a, b) :: rest, x => if x = a then some b else lookupByte rest x

/-- Write one byte, keeping the addresses strictly rising (20 R54). -/
def setByte : Memory → Nat → Byte → Memory
  | [], x, v => [(x, v)]
  | (a, b) :: rest, x, v =>
    if x < a then (x, v) :: (a, b) :: rest
    else if x = a then (x, v) :: rest
    else (a, b) :: setByte rest x v

/-- The canonical form of memory: addresses strictly rising and inside the address space. An unlisted
address reads as unmapped, which no listed one does. -/
def Memory.wf : Memory → Bool
  | [] => true
  | [c] => decide (c.1 < Config.addrSpace)
  | c :: d :: rest => decide (c.1 < d.1) && Memory.wf (d :: rest)

/-- A byte of the chunk of `a` was written, so that under MAP_GRANULARITY = page the chunk is mapped
(20 R56; log 10). -/
def chunkMapped (m : Memory) (a : Nat) : Bool :=
  m.any (fun c => sameChunk c.1 a)

/-- Byte `a` of the address space: its value, or none when it is unmapped (20 R51). Under
MAP_GRANULARITY = page an untouched byte of a mapped chunk has an unconstrained value (20 R56). -/
def State.byteAt (s : State) (a : Nat) : Option Byte :=
  match lookupByte s.mem a with
  | some b => some b
  | none =>
    match s.params.mapGranularity with
    | .byte => none
    | .page => if chunkMapped s.mem a then some (Config.chunkByte s.params.drawRun a) else none

/-- `MemRead(addr, n, cause)` (20 R53): bytes in ascending order, each checked for the range and then for
being mapped; little-endian (20 R57); the address does not wrap. -/
def memRead (s : State) (cause : Cause) : Nat → Nat → Except Stop Nat
  | _, 0 => .ok 0
  | a, n + 1 =>
    if Config.addrSpace ≤ a then .error { cause := .addressOutOfRange, info := .address a }
    else
      match s.byteAt a with
      | none => .error { cause := cause, info := .address a }
      | some b =>
        match memRead s cause (a + 1) n with
        | .error e => .error e
        | .ok rest => .ok (b.toNat + 256 * rest)

/-- The range check of `MemWrite` (20 R54): the first byte at or above 2^32. -/
def rangeCheck : Nat → Nat → Option Stop
  | _, 0 => none
  | a, n + 1 =>
    if Config.addrSpace ≤ a then some { cause := .addressOutOfRange, info := .address a }
    else rangeCheck (a + 1) n

/-- The storage check of a write (20 R68): the first newly mapped byte the environment cannot store. DESIGN
CHOICE (log 11): only the bytes of the access itself are tested. Under MAP_GRANULARITY = page the rest of a chunk
the write maps (20 R56) is not tested, so an unstorable byte there becomes readable, raises nothing, and counts as
mapped when it is written later. -/
def storageCheck (s : State) : Nat → Nat → Option Stop
  | _, 0 => none
  | a, n + 1 =>
    if (s.byteAt a).isNone && s.params.unstorable.contains a then
      some { cause := .allocationFailure, info := .address a }
    else storageCheck s (a + 1) n

/-- The bytes of `MemWrite`: the `n` low bytes of `v`, the lowest first (20 R54, R57). -/
def storeBytes : Memory → Nat → Nat → Nat → Memory
  | m, _, 0, _ => m
  | m, a, n + 1, v => storeBytes (setByte m a (BitVec.ofNat 8 v)) (a + 1) n (v / 256)

/-- `MemWrite(addr, n, v)` (20 R54, R68): every check comes before the first byte. -/
def memWrite (s : State) (a n v : Nat) : Except Stop State :=
  match rangeCheck a n with
  | some stop => .error stop
  | none =>
    match storageCheck s a n with
    | some stop => .error stop
    | none => .ok { s with mem := storeBytes s.mem a n v }

/-! ### Ports -/

/-- `P.write(v)` (40 R111). -/
def Port.write {α : Type} (p : Port α) (v : α) : Port α := { p with written := some v }

/-- `P.read()` of a data port, whose latency is 1 (40 R111, R113). -/
def Port.read {α : Type} (p : Port α) : Option α := p.out

/-- `P.read()` of a stall port (40 R111, R113): with latency 1 the value of the cycle before, with
latency 0 the value written earlier in the same cycle. -/
def Port.readStall (p : Port Bool) : StallLatency → Option Bool
  | .one => p.out
  | .zero => p.written

/-- The update of a latency-1 port at the end of a cycle (40 R114). -/
def Port.update {α : Type} (p : Port α) : Port α := { out := p.written, written := none }

/-- The update of a stall port at the end of a cycle (40 R114): with latency 0 the value is discarded. -/
def Port.updateStall (p : Port Bool) : StallLatency → Port Bool
  | .one => p.update
  | .zero => Port.empty

end Sys2Proof.Machine
end

