-- ==== Sys2Proof/Machine/Pipeline.lean ====
section
/-! DEFINITION. What every instruction does in the stage handlers, apart from what it computes (spec 40
R115 to R121): the issue in decode, the commit in writeback, and the passage through execute and memory.
`perform` puts the four together; each instruction's meaning is one `perform` with its own execute and
memory parts (Alu, MulDiv, Control, LoadStore, System). -/

namespace Sys2Proof.Machine

/-- What an instruction computes in the execute stage: `ExecuteOp` (40 R119). -/
abbrev ExecutePart := InstrRecord → Except Stop InstrRecord

/-- What an instruction does in the memory stage (40 R120). -/
abbrev MemoryPart := State → InstrRecord → Except Stop (State × InstrRecord)

/-- `Hazard(I)` (40 R117). -/
def hazard (i : Instr) (s : State) : Bool :=
  s.isPending i.src1 || s.isPending i.src2 ||
    (s.params.wawInterlock && (s.isPending i.dst || s.isPending i.dst2))

/-- The word the decode stage works on (40 R116 step 2): the held one, else what F2D delivers. -/
def State.decodeInput (s : State) : Option Fetched :=
  match s.hold with
  | some f => some f
  | none => s.f2d.read

/-- A stall of the decode stage (40 R116 step 4). -/
def holdBack (f : Fetched) (s : State) : State :=
  { s with
    d2f := s.d2f.write true
    hold := some f
    trace := { s.trace with decode := InstrRecord.null } }

/-- The record an instruction is issued with (40 R116 step 6): `v1` and `v2` are read before the
destinations are marked pending, which makes no difference (10 R22). -/
def issuedRecord (i : Instr) (f : Fetched) (s : State) : InstrRecord :=
  { recordOf i f with v1 := s.readSlot i.src1, v2 := s.readSlot i.src2 }

/-- The program counter's part of the issue (40 R116 step 7). -/
def advancePc (i : Instr) (s : State) : State :=
  if i.isJump then { s with pcValid := false } else { s with pc := nextPc s.pc }

/-- The issue of an instruction (40 R116 steps 6 and 7). -/
def issue (i : Instr) (f : Fetched) (s : State) : State :=
  let r := issuedRecord i f s
  let marked := (s.invalidate i.dst).invalidate i.dst2
  advancePc i
    { marked with
      hold := none
      d2e := s.d2e.write r
      trace := { s.trace with decode := r } }

/-- The decode stage's work on a decoded instruction (40 R116 steps 4 to 7). -/
def decodePart (i : Instr) (f : Fetched) (s : State) : State :=
  if hazard i s then holdBack f s
  else
    match s.sourceCheck i.src1 with
    | some stop => s.raise stop
    | none =>
      match s.sourceCheck i.src2 with
      | some stop => s.raise stop
      | none => issue i f s

/-- The redirection a retiring jump makes (40 R115, 10 R29, R30). -/
def redirect (i : Instr) (r : InstrRecord) (s : State) : State :=
  if i.isJump then { s with pc := r.newPc, pcValid := true } else s

/-- The writeback of an instruction whose destinations are pending (40 R115). -/
def retire (i : Instr) (r : InstrRecord) (s : State) : State :=
  let stored := (s.setSlot i.dst r.result).setSlot i.dst2 r.result2
  redirect i r
    { stored with
      retired := s.retired + 1#64
      trace := { s.trace with writeback := r } }

/-- The writeback stage's work on an instruction (40 R115): both destinations are checked before either
is written. -/
def writebackPart (i : Instr) (r : InstrRecord) (s : State) : State :=
  match s.writeCheck i.dst with
  | some stop => s.raise stop
  | none =>
    match s.writeCheck i.dst2 with
    | some stop => s.raise stop
    | none => retire i r s

/-- The end of the execute stage: `E2M.write(I)` and the trace entry (40 R119). -/
def toMemory (r : InstrRecord) (s : State) : State :=
  { s with e2m := s.e2m.write r, trace := { s.trace with execute := r } }

/-- The end of the memory stage: `M2W.write(I)` and the trace entry (40 R120). -/
def toWriteback (r : InstrRecord) (s : State) : State :=
  { s with m2w := s.m2w.write r, trace := { s.trace with memory := r } }

/-- The execute stage's work on an instruction (40 R119). -/
def executePart (compute : ExecutePart) (r : InstrRecord) (s : State) : State :=
  match compute r with
  | .error stop => s.raise stop
  | .ok r' => toMemory r' s

/-- The memory stage's work on an instruction (40 R120). -/
def memoryPart (access : MemoryPart) (r : InstrRecord) (s : State) : State :=
  match access s r with
  | .error stop => s.raise stop
  | .ok (s', r') => toWriteback r' s'

/-- "Non-memory instructions pass through unchanged" (40 R120). -/
def passMemory : MemoryPart := fun s r => .ok (s, r)

/-- A bubble: the stage that is running shows the null instruction, or no fetch, and writes nothing to
its data port (40 R121). -/
def State.bubble (s : State) : State :=
  match s.stage with
  | .writeback => { s with trace := { s.trace with writeback := InstrRecord.null } }
  | .decode => { s with trace := { s.trace with decode := InstrRecord.null } }
  | .fetch => { s with trace := { s.trace with fetch := none } }
  | .execute => { s with trace := { s.trace with execute := InstrRecord.null } }
  | .memory => { s with trace := { s.trace with memory := InstrRecord.null } }
  | .loader => s

/-- What instruction `i` does in the stage handler that is running (40 R115, R116, R119, R120). The
instruction is the one that stage holds; a stage that holds none has a bubble. In the fetch stage no
instruction is known yet (40 R118), so none does anything there (log 3). -/
def perform (i : Instr) (compute : ExecutePart) (access : MemoryPart) (s : State) : Result :=
  match s.stage with
  | .writeback =>
    match s.m2w.read with
    | some r => .next (writebackPart i r s)
    | none => .next s.bubble
  | .decode =>
    match s.decodeInput with
    | some f => .next (decodePart i f s)
    | none => .next s.bubble
  | .fetch => .next s
  | .execute =>
    match s.d2e.read with
    | some r => .next (executePart compute r s)
    | none => .next s.bubble
  | .memory =>
    match s.e2m.read with
    | some r => .next (memoryPart access r s)
    | none => .next s.bubble
  | .loader => .next s

end Sys2Proof.Machine
end

