-- ==== Sys2Proof/Machine/Alu.lean ====
section
/-! DEFINITION. The integer ALU instructions (spec 41 R170 to R197): each meaning is its operand row
(30 R88), what it computes in the execute stage, and nothing in the memory stage (41 R195). -/

namespace Sys2Proof.Machine

/-- An operation that only sets `result` and cannot fail (41 R195). -/
def setResult (f : InstrRecord → Word) : ExecutePart :=
  fun r => .ok { r with result := f r }

/-- An operation whose exact signed result is checked for overflow (41 R170, R172, R174, R196). -/
def setChecked (mode : OverflowMode) (mnemonic : String) (f : InstrRecord → Int) : ExecutePart :=
  fun r =>
    match overflowChecked mode r.pc mnemonic (f r) with
    | .error stop => .error stop
    | .ok v => .ok { r with result := v }

/-! ### Add and subtract -/

/-- `add` (41 R170): the exact signed sum, checked. -/
def execAdd (rd rs rt : Nat) (s : State) : Result :=
  perform (.add rd rs rt) (setChecked s.params.overflowMode "add" fun r => r.v1.toInt + r.v2.toInt) passMemory s

/-- `addu` (41 R171). -/
def execAddu (rd rs rt : Nat) (s : State) : Result :=
  perform (.addu rd rs rt) (setResult fun r => r.v1 + r.v2) passMemory s

/-- `sub` (41 R172): the exact signed difference, checked. -/
def execSub (rd rs rt : Nat) (s : State) : Result :=
  perform (.sub rd rs rt) (setChecked s.params.overflowMode "sub" fun r => r.v1.toInt - r.v2.toInt) passMemory s

/-- `subu` (41 R173). -/
def execSubu (rd rs rt : Nat) (s : State) : Result :=
  perform (.subu rd rs rt) (setResult fun r => r.v1 - r.v2) passMemory s

/-- `addi` (41 R174): the exact signed sum with the sign-extended immediate, checked. -/
def execAddi (rt rs : Nat) (imm : Half) (s : State) : Result :=
  perform (.addi rt rs imm) (setChecked s.params.overflowMode "addi" fun r => r.v1.toInt + (sext16 imm).toInt) passMemory s

/-- `addiu` (41 R175): the immediate is sign-extended. -/
def execAddiu (rt rs : Nat) (imm : Half) (s : State) : Result :=
  perform (.addiu rt rs imm) (setResult fun r => r.v1 + sext16 imm) passMemory s

/-! ### Logical -/

/-- `and` (41 R176). -/
def execAnd (rd rs rt : Nat) (s : State) : Result :=
  perform (.and rd rs rt) (setResult fun r => r.v1 &&& r.v2) passMemory s

/-- `or` (41 R177). -/
def execOr (rd rs rt : Nat) (s : State) : Result :=
  perform (.or rd rs rt) (setResult fun r => r.v1 ||| r.v2) passMemory s

/-- `xor` (41 R178). -/
def execXor (rd rs rt : Nat) (s : State) : Result :=
  perform (.xor rd rs rt) (setResult fun r => r.v1 ^^^ r.v2) passMemory s

/-- `nor` (41 R179). -/
def execNor (rd rs rt : Nat) (s : State) : Result :=
  perform (.nor rd rs rt) (setResult fun r => ~~~(r.v1 ||| r.v2)) passMemory s

/-- `andi` (41 R180): the immediate is zero-extended. -/
def execAndi (rt rs : Nat) (imm : Half) (s : State) : Result :=
  perform (.andi rt rs imm) (setResult fun r => r.v1 &&& zext16 imm) passMemory s

/-- `ori` (41 R181): the immediate is zero-extended. -/
def execOri (rt rs : Nat) (imm : Half) (s : State) : Result :=
  perform (.ori rt rs imm) (setResult fun r => r.v1 ||| zext16 imm) passMemory s

/-- `xori` (41 R182): the immediate is zero-extended. -/
def execXori (rt rs : Nat) (imm : Half) (s : State) : Result :=
  perform (.xori rt rs imm) (setResult fun r => r.v1 ^^^ zext16 imm) passMemory s

/-- `lui` (41 R183): no source. -/
def execLui (rt : Nat) (imm : Half) (s : State) : Result :=
  perform (.lui rt imm) (setResult fun _ => upperImm imm) passMemory s

/-! ### Shifts -/

/-- `sll` (41 R185). -/
def execSll (rd rt : Nat) (shamt : BitVec 5) (s : State) : Result :=
  perform (.sll rd rt shamt) (setResult fun r => r.v1 <<< shamt.toNat) passMemory s

/-- `srl` (41 R186): a logical right shift. -/
def execSrl (rd rt : Nat) (shamt : BitVec 5) (s : State) : Result :=
  perform (.srl rd rt shamt) (setResult fun r => r.v1 >>> shamt.toNat) passMemory s

/-- `sra` (41 R187): an arithmetic right shift. -/
def execSra (rd rt : Nat) (shamt : BitVec 5) (s : State) : Result :=
  perform (.sra rd rt shamt) (setResult fun r => r.v1.sshiftRight shamt.toNat) passMemory s

/-- `sllv` (41 R188): `v1` is `rt`, the amount is `rs[4:0]`. -/
def execSllv (rd rt rs : Nat) (s : State) : Result :=
  perform (.sllv rd rt rs) (setResult fun r => r.v1 <<< variableShift r.v2) passMemory s

/-- `srlv` (41 R189). -/
def execSrlv (rd rt rs : Nat) (s : State) : Result :=
  perform (.srlv rd rt rs) (setResult fun r => r.v1 >>> variableShift r.v2) passMemory s

/-- `srav` (41 R190). -/
def execSrav (rd rt rs : Nat) (s : State) : Result :=
  perform (.srav rd rt rs) (setResult fun r => r.v1.sshiftRight (variableShift r.v2)) passMemory s

/-! ### Set on less than -/

/-- `slt` (41 R191). -/
def execSlt (rd rs rt : Nat) (s : State) : Result :=
  perform (.slt rd rs rt) (setResult fun r => boolWord (signedLess r.v1 r.v2)) passMemory s

/-- `sltu` (41 R192). -/
def execSltu (rd rs rt : Nat) (s : State) : Result :=
  perform (.sltu rd rs rt) (setResult fun r => boolWord (unsignedLess r.v1 r.v2)) passMemory s

/-- `slti` (41 R193). -/
def execSlti (rt rs : Nat) (imm : Half) (s : State) : Result :=
  perform (.slti rt rs imm) (setResult fun r => boolWord (signedLess r.v1 (sext16 imm))) passMemory s

/-- `sltiu` (41 R194): the immediate is sign-extended, then compared unsigned. -/
def execSltiu (rt rs : Nat) (imm : Half) (s : State) : Result :=
  perform (.sltiu rt rs imm) (setResult fun r => boolWord (unsignedLess r.v1 (sext16 imm))) passMemory s

end Sys2Proof.Machine
end

