-- ==== Sys2Proof/Machine/Control.lean ====
section
/-! DEFINITION. Branches and jumps (spec 43 R220 to R231): the execute stage computes `new_pc` (and the
link), the writeback stage loads it (43 R229). There is no delay slot (43 R228) and no target alignment
(43 R230). -/

namespace Sys2Proof.Machine

/-- A conditional branch (43 R220 to R223): taken or not, `new_pc` is set. -/
def branchIf (taken : InstrRecord → Bool) (imm : Half) : ExecutePart :=
  fun r => .ok { r with newPc := if taken r then branchTarget r.pc imm else nextPc r.pc }

/-- A jump to an absolute target (43 R224). -/
def jumpTo (target : InstrRecord → Word) : ExecutePart :=
  fun r => .ok { r with newPc := target r }

/-- A jump that links (43 R225, R227): `result <- pc + LINK_OFFSET`. -/
def jumpAndLink (linkOffset : Word) (target : InstrRecord → Word) : ExecutePart :=
  fun r => .ok { r with newPc := target r, result := r.pc + linkOffset }

/-- `beq` (43 R220). -/
def execBeq (rs rt : Nat) (imm : Half) (s : State) : Result :=
  perform (.beq rs rt imm) (branchIf (fun r => r.v1 == r.v2) imm) passMemory s

/-- `bne` (43 R221). -/
def execBne (rs rt : Nat) (imm : Half) (s : State) : Result :=
  perform (.bne rs rt imm) (branchIf (fun r => r.v1 != r.v2) imm) passMemory s

/-- `blez` (43 R222). -/
def execBlez (rs : Nat) (imm : Half) (s : State) : Result :=
  perform (.blez rs imm) (branchIf (fun r => decide (r.v1.toInt ≤ 0)) imm) passMemory s

/-- `bgtz` (43 R223). -/
def execBgtz (rs : Nat) (imm : Half) (s : State) : Result :=
  perform (.bgtz rs imm) (branchIf (fun r => decide (0 < r.v1.toInt)) imm) passMemory s

/-- `j` (43 R224). -/
def execJ (target : BitVec 26) (s : State) : Result :=
  perform (.j target) (jumpTo fun r => jumpTarget r.pc target) passMemory s

/-- `jal` (43 R225). -/
def execJal (target : BitVec 26) (s : State) : Result :=
  perform (.jal target) (jumpAndLink s.params.linkOffset fun r => jumpTarget r.pc target) passMemory s

/-- `jr` (43 R226). -/
def execJr (rs : Nat) (s : State) : Result :=
  perform (.jr rs) (jumpTo fun r => r.v1) passMemory s

/-- `jalr` (43 R227). -/
def execJalr (rd rs : Nat) (s : State) : Result :=
  perform (.jalr rd rs) (jumpAndLink s.params.linkOffset fun r => r.v1) passMemory s

end Sys2Proof.Machine
end

