-- ==== Sys2Proof/Machine/LoadStore.lean ====
section
/-! DEFINITION. Loads and stores (spec 44 R240 to R250): the execute stage sets the address and the
width, the memory stage reads or writes (40 R120). -/

namespace Sys2Proof.Machine

/-- The execute part of every load and store: `addr <- v1 + sext_16(imm)`, `width <- n` (44 R248). -/
def setAddress (imm : Half) (n : Nat) : ExecutePart :=
  fun r => .ok { r with addr := effAddr r.v1 imm, width := n }

/-- The memory part of a load (40 R120): `result <- LoadExtend(MemRead(addr, width, UnmappedLoad))`. -/
def loadMemory (extend : Nat → Word) : MemoryPart := fun s r =>
  match memRead s .unmappedLoad r.addr.toNat r.width with
  | .error stop => .error stop
  | .ok v => .ok (s, { r with result := extend v })

/-- The memory part of a store (40 R120): `MemWrite(addr, width, v2[8*width-1 : 0])`. -/
def storeMemory : MemoryPart := fun s r =>
  match memWrite s r.addr.toNat r.width r.v2.toNat with
  | .error stop => .error stop
  | .ok s' => .ok (s', r)

/-- `lb` (44 R240). -/
def execLb (rt : Nat) (imm : Half) (rs : Nat) (s : State) : Result :=
  perform (.lb rt imm rs) (setAddress imm 1) (loadMemory fun v => sext8 (BitVec.ofNat 8 v)) s

/-- `lh` (44 R241). -/
def execLh (rt : Nat) (imm : Half) (rs : Nat) (s : State) : Result :=
  perform (.lh rt imm rs) (setAddress imm 2) (loadMemory fun v => sext16 (BitVec.ofNat 16 v)) s

/-- `lw` (44 R242). -/
def execLw (rt : Nat) (imm : Half) (rs : Nat) (s : State) : Result :=
  perform (.lw rt imm rs) (setAddress imm 4) (loadMemory fun v => BitVec.ofNat 32 v) s

/-- `lbu` (44 R243). -/
def execLbu (rt : Nat) (imm : Half) (rs : Nat) (s : State) : Result :=
  perform (.lbu rt imm rs) (setAddress imm 1) (loadMemory fun v => zext8 (BitVec.ofNat 8 v)) s

/-- `lhu` (44 R244). -/
def execLhu (rt : Nat) (imm : Half) (rs : Nat) (s : State) : Result :=
  perform (.lhu rt imm rs) (setAddress imm 2) (loadMemory fun v => zext16 (BitVec.ofNat 16 v)) s

/-- `sb` (44 R245). -/
def execSb (rt : Nat) (imm : Half) (rs : Nat) (s : State) : Result :=
  perform (.sb rt imm rs) (setAddress imm 1) storeMemory s

/-- `sh` (44 R246). -/
def execSh (rt : Nat) (imm : Half) (rs : Nat) (s : State) : Result :=
  perform (.sh rt imm rs) (setAddress imm 2) storeMemory s

/-- `sw` (44 R247). -/
def execSw (rt : Nat) (imm : Half) (rs : Nat) (s : State) : Result :=
  perform (.sw rt imm rs) (setAddress imm 4) storeMemory s

end Sys2Proof.Machine
end

