-- ==== Sys2Proof/Machine/MulDiv.lean ====
section
/-! DEFINITION. Multiply, divide and the HI/LO moves (spec 42 R200 to R210). `result` goes to LO and
`result2` to HI for the four operations with two destinations. -/

namespace Sys2Proof.Machine

/-- A 64-bit product: the low half is `result` (to LO), the high half is `result2` (to HI) (42 R200). -/
def setProduct (p : InstrRecord → BitVec 64) : ExecutePart :=
  fun r => .ok { r with result := (p r).extractLsb' 0 32, result2 := (p r).extractLsb' 32 32 }

/-- Signed division (42 R202): a zero divisor and `-2^31 / -1` are Fatals; else the quotient rounded
toward zero and the remainder with the sign of the dividend (42 R204). -/
def divideSigned (mnemonic : String) : ExecutePart := fun r =>
  let a := r.v1.toInt
  let b := r.v2.toInt
  if b = 0 then .error { cause := .divideByZero, info := .instr r.pc mnemonic }
  else if a = -2 ^ 31 ∧ b = -1 then .error { cause := .divideOverflow, info := .instr r.pc mnemonic }
  else
    let q := a.tdiv b
    .ok { r with result := BitVec.ofInt 32 q, result2 := BitVec.ofInt 32 (a - q * b) }

/-- Unsigned division (42 R203): a zero divisor is a Fatal. -/
def divideUnsigned (mnemonic : String) : ExecutePart := fun r =>
  if r.v2 = 0#32 then .error { cause := .divideByZero, info := .instr r.pc mnemonic }
  else .ok { r with result := BitVec.ofNat 32 (r.v1.toNat / r.v2.toNat), result2 := BitVec.ofNat 32 (r.v1.toNat % r.v2.toNat) }

/-- A move (42 R206 to R209): `result <- v1`. -/
def moveValue : ExecutePart := fun r => .ok { r with result := r.v1 }

/-- `mult` (42 R200): the exact signed product. -/
def execMult (rs rt : Nat) (s : State) : Result :=
  perform (.mult rs rt) (setProduct fun r => BitVec.ofInt 64 (r.v1.toInt * r.v2.toInt)) passMemory s

/-- `multu` (42 R201): the exact unsigned product. -/
def execMultu (rs rt : Nat) (s : State) : Result :=
  perform (.multu rs rt) (setProduct fun r => BitVec.ofNat 64 (r.v1.toNat * r.v2.toNat)) passMemory s

/-- `div` (42 R202). -/
def execDiv (rs rt : Nat) (s : State) : Result :=
  perform (.div rs rt) (divideSigned "div") passMemory s

/-- `divu` (42 R203). -/
def execDivu (rs rt : Nat) (s : State) : Result :=
  perform (.divu rs rt) (divideUnsigned "divu") passMemory s

/-- `mfhi` (42 R206). -/
def execMfhi (rd : Nat) (s : State) : Result :=
  perform (.mfhi rd) moveValue passMemory s

/-- `mthi` (42 R207). -/
def execMthi (rs : Nat) (s : State) : Result :=
  perform (.mthi rs) moveValue passMemory s

/-- `mflo` (42 R208). -/
def execMflo (rd : Nat) (s : State) : Result :=
  perform (.mflo rd) moveValue passMemory s

/-- `mtlo` (42 R209). -/
def execMtlo (rs : Nat) (s : State) : Result :=
  perform (.mtlo rs) moveValue passMemory s

end Sys2Proof.Machine
end

