-- ==== Sys2Proof/Machine/System.lean ====
section
/-! DEFINITION. The system instructions (spec 45 R260 to R263): a Fatal in the execute stage under
SYS_MODE = fatal, no effect under SYS_MODE = nop, when they pass through and are counted like any other
instruction. -/

namespace Sys2Proof.Machine

/-- The execute part of the three (45 R260). -/
def systemStop (mode : SysMode) (mnemonic : String) : ExecutePart := fun r =>
  match mode with
  | .fatal => .error { cause := .systemInstruction, info := .instr r.pc mnemonic }
  | .nop => .ok r

/-- `syscall` (45 R260). -/
def execSyscall (s : State) : Result :=
  perform .syscall (systemStop s.params.sysMode "syscall") passMemory s

/-- `break` (45 R261). -/
def execBreak (s : State) : Result :=
  perform .brk (systemStop s.params.sysMode "break") passMemory s

/-- `trap` (45 R262). -/
def execTrap (s : State) : Result :=
  perform .trap (systemStop s.params.sysMode "trap") passMemory s

end Sys2Proof.Machine
end

