-- ==== Sys2Proof/Machine/Cycle.lean ====
section
/-! DEFINITION. One cycle (spec 40 R110): the five stage handlers in their order, then the port update
(40 R114) and the cycle counter. A handler that holds an instruction calls `exec` of it. A Fatal stops the
cycle where it is raised (40 R130). Also where a word must lie for the next cycle to run it. -/

namespace Sys2Proof.Machine

/-- The next handler runs unless the cycle has stopped (40 R130). -/
def chain (o : Result) (next : State → Result) : Result :=
  match o with
  | .next s => if s.fatal.isSome then .next s else next s
  | .fault e => .fault e
  | .refused e => .refused e

/-- Writeback (40 R115): it never asserts its stall output. -/
def writebackStage (s : State) : Result :=
  let s := { s with stage := .writeback }
  match s.m2w.read with
  | some r => exec r.op s
  | none => .next s.bubble

/-- Decode (40 R116). -/
def decodeStage (s : State) : Result :=
  let s := { s with stage := .decode }
  if s.e2d.readStall s.params.stallLatency = some true then
    .next { s.bubble with d2f := s.d2f.write true }
  else
    match s.decodeInput with
    | none => .next s.bubble
    | some f =>
      match decodeWord f.word with
      | .error _ => .next (s.raise { cause := .decodeFailure, info := .word f.word f.pc })
      | .ok i => exec i s

/-- Fetch (40 R118): the word at `pc`, read with the same little-endian `MemRead` as data (20 R57). -/
def fetchStage (s : State) : Result :=
  let s := { s with stage := .fetch }
  if s.d2f.readStall s.params.stallLatency = some true ∨ s.pcValid = false then .next s.bubble
  else
    match memRead s .unmappedFetch s.pc.toNat Config.instrBytes with
    | .error stop => .next (s.raise stop)
    | .ok v =>
      let f : Fetched := { word := BitVec.ofNat 32 v, pc := s.pc }
      .next { s with f2d := s.f2d.write f, trace := { s.trace with fetch := some f } }

/-- Execute (40 R119). -/
def executeStage (s : State) : Result :=
  let s := { s with stage := .execute }
  if s.m2e.readStall s.params.stallLatency = some true then
    .next { s.bubble with e2d := s.e2d.write true }
  else
    match s.d2e.read with
    | none => .next s.bubble
    | some r => exec r.op s

/-- Memory (40 R120). -/
def memoryStage (s : State) : Result :=
  let s := { s with stage := .memory }
  if s.w2m.readStall s.params.stallLatency = some true then
    .next { s.bubble with m2e := s.m2e.write true }
  else
    match s.e2m.read with
    | none => .next s.bubble
    | some r => exec r.op s

/-- The end of a cycle (40 R110, R114): every port is updated and the cycle counter advances. -/
def endCycle (s : State) : State :=
  { s with
    f2d := s.f2d.update
    d2e := s.d2e.update
    e2m := s.e2m.update
    m2w := s.m2w.update
    d2f := s.d2f.updateStall s.params.stallLatency
    e2d := s.e2d.updateStall s.params.stallLatency
    m2e := s.m2e.updateStall s.params.stallLatency
    w2m := s.w2m.updateStall s.params.stallLatency
    cycle := s.cycle + 1#64
    stage := .writeback }

/-- The start of a cycle: no stage has held anything yet (log 12). -/
def startCycle (s : State) : State :=
  { s with trace := Trace.bubbles }

/-- One cycle (40 R110). -/
def runCycle (s : State) : Result :=
  chain (writebackStage (startCycle s)) fun s =>
  chain (decodeStage s) fun s =>
  chain (fetchStage s) fun s =>
  chain (executeStage s) fun s =>
  chain (memoryStage s) fun s =>
  .next (endCycle s)

/-- Store four bytes of a word at a pc, those that lie inside the address space (log 8). -/
def placeWord (m : Memory) (a : Nat) (w : Word) : Memory :=
  storeBytes m a (min 4 (Config.addrSpace - a)) w.toNat

/-- What the next cycle needs to run the instruction word `w` (log 8): the word lies at `pc`, the fetch
stage has delivered it to F2D, the hold register is empty, and the next word is mapped, because the cycle
that issues an instruction fetches the word after it (70 R303 c). -/
def placeInstruction (s : State) (w : Word) : State :=
  { s with
    mem := placeWord (placeWord s.mem (nextPc s.pc).toNat 0#32) s.pc.toNat w
    f2d := { s.f2d with out := some { word := w, pc := s.pc } }
    hold := none }

end Sys2Proof.Machine
end

