-- ==== Sys2Proof/Machine/Step.lean ====
section
/-! DEFINITION. The step of the machine: one cycle, while the run has not ended (spec 40 R125). -/

namespace Sys2Proof.Machine

/-- One step. A cycle runs while `retired < target` and no Fatal is set (40 R125); after the end of the
run, done or fatal, the block does nothing until reset (60 R272, R281, R282; log 2). -/
def step (s : State) : Host.Outcome State Fault Refusal :=
  if s.isRunning then runCycle s else .next s

/-- The state in which the next step runs the instruction whose bits are `w` (log 8). -/
def State.withFetchWord (s : State) (nbits w : Nat) : State :=
  placeInstruction s (BitVec.ofNat 32 (w % 2 ^ nbits))

end Sys2Proof.Machine
end

