-- ==== Sys2Proof/Machine/Boot.lean ====
section
/-! DEFINITION. The reset sequence with a program image (spec 20 R55, 70 R300 to R302): what the `reset`
input of the block does (40 R129). It is no step of the machine: it makes the state a run starts from. -/

namespace Sys2Proof.Machine

/-- The name of the section that gives the reset pc (20 R55). -/
def textName : String := ".text"

/-- Write content bytes one at a time from address `a` (20 R55), stopping at a Fatal (20 R68). -/
def loadContent : State → Nat → List Byte → State
  | s, _, [] => s
  | s, a, b :: rest =>
    match memWrite s a 1 b.toNat with
    | .error stop => s.raise stop
    | .ok s' => loadContent s' (a + 1) rest

/-- Load the sections in list order: where two overlap the later one wins (20 R55). -/
def loadSections : State → List Section → State
  | s, [] => s
  | s, c :: rest => if s.fatal.isSome then s else loadSections (loadContent s c.start c.content) rest

/-- The last section named `.text` (20 R55, 70 R301). -/
def textSection (image : List Section) : Option Section :=
  (image.filter (fun c => c.name == textName)).getLast?

/-- The first section that may not be handed over (70 R301). -/
def badSection (image : List Section) : Option Section :=
  image.find? (fun c => !c.wellFormed)

/-- Reset with an image and a retire target (70 R300). An image that is refused starts no run (70 R301), and which
refusal comes first is log 16. DESIGN CHOICE (log 21): the reset values and the target are applied before the
sections are loaded, so the state a loader's AllocationFailure leaves (20 R68, 60 R271, R272) has them, with the
bytes loaded before the failing one; and such a Fatal stands also when the target is 0 (70 R302). -/
def boot (params : Params) (target : Counter) (image : List Section) : Result :=
  match badSection image with
  | some c => .refused (.malformedSection c.name)
  | none =>
    match textSection image with
    | none => .refused .noTextSection
    | some c =>
      let p := { params with textBase := BitVec.ofNat 32 c.start }
      let cleared := { State.resetWith p target [] with stage := .loader }
      let loaded := loadSections cleared image
      if loaded.fatal.isSome then .next loaded else .next { loaded with stage := .writeback }

end Sys2Proof.Machine
end

