-- ==== Sys2Proof/Machine/Render.lean ====
section
/-! DEFINITION. The textual rendering of an instruction (spec 30 R92, R93, with the register names of
10 R28) and the pseudo-instructions of an assembler with their expansions (30 R94). No state depends on
either: the rendering serves the trace output (40 R126). -/

namespace Sys2Proof

/-- The assembler name of a general register (10 R28). -/
def regName (n : Nat) : String :=
  ["$zero", "$at", "$v0", "$v1", "$a0", "$a1", "$a2", "$a3",
   "$t0", "$t1", "$t2", "$t3", "$t4", "$t5", "$t6", "$t7",
   "$s0", "$s1", "$s2", "$s3", "$s4", "$s5", "$s6", "$s7",
   "$t8", "$t9", "$k0", "$k1", "$gp", "$sp", "$fp", "$ra"].getD n ("$" ++ toString n)

/-- The mnemonic of a row (30 R88). -/
def Instr.mnemonic : Instr → String
  | .sll _ _ _ => "sll"
  | .srl _ _ _ => "srl"
  | .sra _ _ _ => "sra"
  | .sllv _ _ _ => "sllv"
  | .srlv _ _ _ => "srlv"
  | .srav _ _ _ => "srav"
  | .jr _ => "jr"
  | .jalr _ _ => "jalr"
  | .syscall => "syscall"
  | .brk => "break"
  | .mfhi _ => "mfhi"
  | .mthi _ => "mthi"
  | .mflo _ => "mflo"
  | .mtlo _ => "mtlo"
  | .mult _ _ => "mult"
  | .multu _ _ => "multu"
  | .div _ _ => "div"
  | .divu _ _ => "divu"
  | .add _ _ _ => "add"
  | .addu _ _ _ => "addu"
  | .sub _ _ _ => "sub"
  | .subu _ _ _ => "subu"
  | .and _ _ _ => "and"
  | .or _ _ _ => "or"
  | .xor _ _ _ => "xor"
  | .nor _ _ _ => "nor"
  | .slt _ _ _ => "slt"
  | .sltu _ _ _ => "sltu"
  | .beq _ _ _ => "beq"
  | .bne _ _ _ => "bne"
  | .blez _ _ => "blez"
  | .bgtz _ _ => "bgtz"
  | .addi _ _ _ => "addi"
  | .addiu _ _ _ => "addiu"
  | .slti _ _ _ => "slti"
  | .sltiu _ _ _ => "sltiu"
  | .andi _ _ _ => "andi"
  | .ori _ _ _ => "ori"
  | .xori _ _ _ => "xori"
  | .lui _ _ => "lui"
  | .trap => "trap"
  | .lb _ _ _ => "lb"
  | .lh _ _ _ => "lh"
  | .lw _ _ _ => "lw"
  | .lbu _ _ _ => "lbu"
  | .lhu _ _ _ => "lhu"
  | .sb _ _ _ => "sb"
  | .sh _ _ _ => "sh"
  | .sw _ _ _ => "sw"
  | .j _ => "j"
  | .jal _ => "jal"

/-- A 16-bit immediate or offset as a signed decimal (30 R92; log 17). -/
def immText (imm : Half) : String := toString imm.toInt

/-- The operands of an instruction as text, by operand-pattern class (30 R92). DESIGN CHOICE (log 17): the
`target` of `j` and `jal` is written as the raw 26-bit field (30 R87) in decimal, not as the byte address it
leads to, which also depends on the pc. -/
def Instr.operandTexts : Instr → List String
  | .add rd rs rt | .addu rd rs rt | .sub rd rs rt | .subu rd rs rt | .and rd rs rt | .or rd rs rt
  | .xor rd rs rt | .nor rd rs rt | .slt rd rs rt | .sltu rd rs rt =>
    [regName rd, regName rs, regName rt]
  | .sllv rd rt rs | .srlv rd rt rs | .srav rd rt rs => [regName rd, regName rt, regName rs]
  | .sll rd rt shamt | .srl rd rt shamt | .sra rd rt shamt =>
    [regName rd, regName rt, toString shamt.toNat]
  | .addi rt rs imm | .addiu rt rs imm | .slti rt rs imm | .sltiu rt rs imm | .andi rt rs imm
  | .ori rt rs imm | .xori rt rs imm => [regName rt, regName rs, immText imm]
  | .lui rt imm => [regName rt, immText imm]
  | .lb rt imm rs | .lh rt imm rs | .lw rt imm rs | .lbu rt imm rs | .lhu rt imm rs
  | .sb rt imm rs | .sh rt imm rs | .sw rt imm rs =>
    [regName rt, immText imm ++ "(" ++ regName rs ++ ")"]
  | .beq rs rt imm | .bne rs rt imm => [regName rs, regName rt, immText imm]
  | .blez rs imm | .bgtz rs imm => [regName rs, immText imm]
  | .j target | .jal target => [toString target.toNat]
  | .jr rs => [regName rs]
  | .jalr rd rs => [regName rd, regName rs]
  | .mfhi rd | .mflo rd => [regName rd]
  | .mthi rs | .mtlo rs => [regName rs]
  | .mult rs rt | .multu rs rt | .div rs rt | .divu rs rt => [regName rs, regName rt]
  | .syscall | .brk | .trap => []

/-- The rendering 'mnemonic operand, operand, …' (30 R92). -/
def Instr.render (i : Instr) : String :=
  match i.operandTexts with
  | [] => i.mnemonic
  | operands => i.mnemonic ++ " " ++ String.intercalate ", " operands

/-- The pseudo-instructions a program may be written with (30 R94). -/
inductive Pseudo where
  | nop
  | move (d s : Nat)
  | li (d : Nat) (k : Int)
  | b (offset : Half)
  | beqz (s : Nat) (offset : Half)
  | bnez (s : Nat) (offset : Half)
  | neg (d s : Nat)
  | not (d s : Nat)
deriving DecidableEq, Repr

/-- The rows a pseudo-instruction stands for (30 R94). DESIGN CHOICE (log 20): for `0 <= k <= 32767` both the
`addiu` and the `ori` expansion of `li` are listed, without an order; the model takes `addiu`. -/
def Pseudo.expand : Pseudo → List Instr
  | .nop => [.sll 0 0 0#5]
  | .move d s => [.addu d s 0]
  | .li d k =>
    if -32768 ≤ k ∧ k ≤ 32767 then [.addiu d 0 (BitVec.ofInt 16 k)]
    else if 0 ≤ k ∧ k ≤ 0xFFFF then [.ori d 0 (BitVec.ofInt 16 k)]
    else
      let w : Word := BitVec.ofInt 32 k
      [.lui d (w.extractLsb' 16 16), .ori d d (w.extractLsb' 0 16)]
  | .b offset => [.beq 0 0 offset]
  | .beqz s offset => [.beq s 0 offset]
  | .bnez s offset => [.bne s 0 offset]
  | .neg d s => [.sub d 0 s]
  | .not d s => [.nor d s 0]

end Sys2Proof
end

