-- ==== Sys2Proof/Safety.lean ====
section
/-! DEFINITION. What counts as a safe run, and the terms claims are stated in: where an instruction stands
in the pipeline (spec 40 R115 to R120), and the invariant of the engine (40 R122 to R124, R127, R128, R132). -/

namespace Sys2Proof.Machine

/-- No Fatal has been raised (10 R37). -/
def State.isSafe (s : State) : Prop := s.fatal = none

/-- The decode handler is running and holds the fetched word `f` (40 R116 step 2). -/
def AtDecode (s : State) (f : Fetched) : Prop :=
  s.stage = .decode ∧ s.decodeInput = some f

/-- The execute handler is running and holds the record `r` (40 R119). -/
def AtExecute (s : State) (r : InstrRecord) : Prop :=
  s.stage = .execute ∧ s.d2e.read = some r

/-- The memory handler is running and holds the record `r` (40 R120). -/
def AtMemory (s : State) (r : InstrRecord) : Prop :=
  s.stage = .memory ∧ s.e2m.read = some r

/-- The writeback handler is running and holds the record `r` (40 R115). -/
def AtWriteback (s : State) (r : InstrRecord) : Prop :=
  s.stage = .writeback ∧ s.m2w.read = some r

/-- Two records are the same instruction with the same operands: a stage may only add computed fields
(10 R38). -/
def SameInstruction (r r' : InstrRecord) : Prop :=
  r'.word = r.word ∧ r'.pc = r.pc ∧ r'.op = r.op ∧ r'.v1 = r.v1 ∧ r'.v2 = r.v2

/-- Instruction `i` is an R-format row: every word that decodes to it has opcode 0 and the function code
`funct`, and its operands are `row` (30 R82, R83, R88). -/
def HasFunct (i : Instr) (funct : Nat) (row : OperandRow) : Prop :=
  i.row = row ∧ ∀ w, decodeWord w = .ok i → opcodeOf w = 0 ∧ functOf w = funct

/-- Instruction `i` is an I- or J-format row: every word that decodes to it has the opcode `opcode`, and its
operands are `row` (30 R82, R83, R88). -/
def HasOpcode (i : Instr) (opcode : Nat) (row : OperandRow) : Prop :=
  i.row = row ∧ ∀ w, decodeWord w = .ok i → opcodeOf w = opcode

/-- In the execute stage instruction `i` answers a next state in which its record, with the fields `compute`
gives it, has moved on to the memory stage; nothing else changes but the trace entry (40 R119). -/
def ExecutesTo (i : Instr) (compute : State → InstrRecord → InstrRecord) : Prop :=
  ∀ s r, AtExecute s r → exec i s = .next (toMemory (compute s r) s)

/-- In the execute stage instruction `i` raises a Fatal when `trapped` holds (40 R119, 60 R271). -/
def ExecuteTraps (i : Instr) (trapped : State → InstrRecord → Prop) (stop : InstrRecord → Stop) : Prop :=
  ∀ s r, AtExecute s r → trapped s r → exec i s = .next (s.raise (stop r))

/-- The trace entries of every stage but `stage` are as before (40 R126). -/
def SameTraceBut (stage : Stage) (s t : State) : Prop :=
  (stage ≠ .fetch → t.trace.fetch = s.trace.fetch) ∧
  (stage ≠ .decode → t.trace.decode = s.trace.decode) ∧
  (stage ≠ .execute → t.trace.execute = s.trace.execute) ∧
  (stage ≠ .memory → t.trace.memory = s.trace.memory) ∧
  (stage ≠ .writeback → t.trace.writeback = s.trace.writeback)

/-- The environment can store every byte of the range `a .. a+n-1` that is not mapped yet (20 R68; log 11). -/
def Storable (s : State) (a n : Nat) : Prop :=
  ∀ x, a ≤ x → x < a + n → x ∈ s.params.unstorable → (s.byteAt x).isSome = true

/-- `x` is the first byte of the range `a .. a+n-1` that is not mapped yet and that the environment cannot store
(20 R68; log 11). -/
def FirstUnstorable (s : State) (a n x : Nat) : Prop :=
  a ≤ x ∧ x < a + n ∧ s.byteAt x = none ∧ x ∈ s.params.unstorable ∧ Storable s a (x - a)

/-- What a write to the range `a .. a+n-1` leaves of the other bytes: under the byte granularity every one is as
before; under the page granularity a readable one keeps its value, and an unmapped one becomes readable, with its
free value, exactly when the write touches its chunk (20 R56; log 9, log 10). -/
def SameBytesOutside (s t : State) (a n : Nat) : Prop :=
  ∀ x, ¬ (a ≤ x ∧ x < a + n) →
    (s.params.mapGranularity = .byte → t.byteAt x = s.byteAt x) ∧
    (∀ b, s.byteAt x = some b → t.byteAt x = some b) ∧
    (s.byteAt x = none → (∀ y, a ≤ y → y < a + n → sameChunk y x = false) → t.byteAt x = none) ∧
    (s.byteAt x = none → s.params.mapGranularity = .page → (∃ y, a ≤ y ∧ y < a + n ∧ sameChunk y x = true) →
      t.byteAt x = some (Config.chunkByte s.params.drawRun x))

/-- The fetch stage's stall input delivers `true` in this cycle: the value the decode stage wrote in the cycle
before under STALL_LATENCY = 1, in this cycle under 0 (40 R111, R113, R118). -/
def FetchIsStalled (s : State) : Prop :=
  (s.params.stallLatency = .one ∧ s.d2f.out = some true) ∨
  (s.params.stallLatency = .zero ∧ s.d2f.written = some true)

/-- Everything but the execute stage's output, its trace entry and the fatal status is as before. -/
def SameButExecuteOutput (s t : State) : Prop :=
  t.rf = s.rf ∧ t.pc = s.pc ∧ t.pcValid = s.pcValid ∧ t.retired = s.retired ∧ t.target = s.target ∧
  t.cycle = s.cycle ∧ t.hold = s.hold ∧ t.f2d = s.f2d ∧ t.d2e = s.d2e ∧ t.m2w = s.m2w ∧
  t.d2f = s.d2f ∧ t.e2d = s.e2d ∧ t.m2e = s.m2e ∧ t.w2m = s.w2m ∧ t.mem = s.mem ∧
  t.stage = s.stage ∧ t.params = s.params ∧ SameTraceBut .execute s t

/-- Everything but memory, the memory stage's output, its trace entry and the fatal status is as before. -/
def SameButMemoryOutput (s t : State) : Prop :=
  t.rf = s.rf ∧ t.pc = s.pc ∧ t.pcValid = s.pcValid ∧ t.retired = s.retired ∧ t.target = s.target ∧
  t.cycle = s.cycle ∧ t.hold = s.hold ∧ t.f2d = s.f2d ∧ t.d2e = s.d2e ∧ t.e2m = s.e2m ∧
  t.d2f = s.d2f ∧ t.e2d = s.e2d ∧ t.m2e = s.m2e ∧ t.w2m = s.w2m ∧
  t.stage = s.stage ∧ t.params = s.params ∧ SameTraceBut .memory s t

/-- Everything a decode handler never touches: memory, the counters, the ports of the later stages, the run's
end and its parameters. -/
def SameOutsideDecode (s t : State) : Prop :=
  t.mem = s.mem ∧ t.retired = s.retired ∧ t.target = s.target ∧ t.cycle = s.cycle ∧ t.f2d = s.f2d ∧
  t.e2m = s.e2m ∧ t.m2w = s.m2w ∧ t.e2d = s.e2d ∧ t.m2e = s.m2e ∧ t.w2m = s.w2m ∧
  t.stage = s.stage ∧ t.params = s.params ∧ SameTraceBut .decode s t

/-- Everything a retirement never touches: memory, the ports, the hold register, the cycle counter, the fatal
status and the run's parameters. -/
def SameOutsideWriteback (s t : State) : Prop :=
  t.mem = s.mem ∧ t.target = s.target ∧ t.cycle = s.cycle ∧ t.hold = s.hold ∧ t.f2d = s.f2d ∧
  t.d2e = s.d2e ∧ t.e2m = s.e2m ∧ t.m2w = s.m2w ∧ t.d2f = s.d2f ∧ t.e2d = s.e2d ∧ t.m2e = s.m2e ∧
  t.w2m = s.w2m ∧ t.fatal = s.fatal ∧ t.stage = s.stage ∧ t.params = s.params ∧ SameTraceBut .writeback s t

/-- Slot `i` is the same in both states: value, written status and pending bit. -/
def SameSlot (s t : State) (i : Nat) : Prop :=
  t.readSlot i = s.readSlot i ∧ t.isWritten i = s.isWritten i ∧ t.isPending i = s.isPending i

/-- The instructions in flight at the start of a cycle, the youngest first (00 R13). -/
def State.inFlight (s : State) : List InstrRecord :=
  s.d2e.out.toList ++ s.e2m.out.toList ++ s.m2w.out.toList

/-- A jump is in flight (40 R124). -/
def State.jumpInFlight (s : State) : Prop :=
  ∃ r ∈ s.inFlight, r.op.isJump = true

/-- The invariant of the engine at the start of a cycle. -/
structure EngineInv (s : State) : Prop where
  /-- a cycle starts with the writeback handler (40 R110) -/
  stage : s.stage = .writeback
  /-- nothing has been written to a data port yet (40 R114) -/
  dataPorts : s.f2d.written = none ∧ s.d2e.written = none ∧ s.e2m.written = none ∧ s.m2w.written = none
  /-- the decode stage's stall port likewise (40 R114) -/
  d2fPort : s.d2f.written = none
  /-- only the decode stage ever stalls (40 R122) -/
  stallPorts : s.e2d = Port.empty ∧ s.m2e = Port.empty ∧ s.w2m = Port.empty
  /-- what waits to be decoded was fetched at the current pc (40 R123) -/
  fetchAddress : (∀ f, s.f2d.out = some f → f.pc = s.pc) ∧ (∀ f, s.hold = some f → f.pc = s.pc)
  /-- the pc is invalid exactly while a jump is in flight (40 R124) -/
  pcValidity : s.pcValid = false ↔ s.jumpInFlight
  /-- while a jump is in flight nothing waits to be decoded and fetch is not stalled (40 R124) -/
  jumpAlone : s.jumpInFlight → s.hold = none ∧ s.f2d.out = none ∧ s.d2f.out = none
  /-- a jump is the youngest instruction in flight (40 R124) -/
  jumpYoungest :
    (∀ r, s.e2m.out = some r → r.op.isJump = true → s.d2e.out = none) ∧
    (∀ r, s.m2w.out = some r → r.op.isJump = true → s.d2e.out = none ∧ s.e2m.out = none)
  /-- a slot is pending only while an instruction in flight has it as destination (40 R132) -/
  pendingInFlight : ∀ i, s.isPending i = true → ∃ r ∈ s.inFlight, r.dst = i ∨ r.dst2 = i
  /-- a record in flight is what the decoder makes of its word (40 R128) -/
  recordsDecoded : ∀ r ∈ s.inFlight, decodeWord r.word = .ok r.op
  /-- a held word has decoded (40 R128) -/
  holdDecoded : ∀ f, s.hold = some f → ∃ i, decodeWord f.word = .ok i

/-- The invariant of the machine: memory is canonical, no more than the target retires, and, unless the
run has ended in a Fatal, the engine's invariant holds. -/
def State.Inv (s : State) : Prop :=
  Memory.wf s.mem = true ∧ s.retired.toNat ≤ s.target.toNat ∧ (s.isSafe → EngineInv s)

/-- The section `c` places a byte at address `a` (20 R55). -/
def covers (c : Section) (a : Nat) : Prop :=
  c.start ≤ a ∧ a < c.start + c.size

end Sys2Proof.Machine
end

