-- ==== Sys2Proof/Certificates/Slice0/Obligations.lean ====
section
/-! DEFINITION. The statements about the model. Each docstring names the rules of the spec it formalises.
A parameter of a run (`s.params`) is arbitrary wherever a statement does not fix it. -/

open Sys2Proof Sys2Proof.Machine

/-! ### The decoder and the encoder (30) -/

/-- Decode and encode agree for every well-formed instruction, as a word and as bytes in memory order
(30 R90; 95 V1: "encoding the row's match with arbitrary operand fields decodes to that row"). -/
def Obligations.DecodeEncodeRoundTrip : Prop :=
  ∀ i : Instr, i.wellFormed = true →
    decodeWord (encode i) = .ok i ∧
    ∀ rest : List Byte, decodeBytes (encodeBytes i ++ rest) = .ok (i, rest)

/-- What the decoder answers is well-formed and has the key of the word it came from, and its operands are the
word's fields at the positions of the format, whatever the bits that the row does not use (30 R81, R83, R86). -/
def Obligations.DecodedInstructionKeepsItsKey : Prop :=
  (∀ (w : Word) (i : Instr), decodeWord w = .ok i →
    i.wellFormed = true ∧ opcodeOf (encode i) = opcodeOf w ∧
    (opcodeOf w = 0 → functOf (encode i) = functOf w)) ∧
  ∀ w : Word,
    let rs := (w.extractLsb' 21 5).toNat
    let rt := (w.extractLsb' 16 5).toNat
    let rd := (w.extractLsb' 11 5).toNat
    let shamt := w.extractLsb' 6 5
    let imm := w.extractLsb' 0 16
    let target := w.extractLsb' 0 26
    opcodeOf w = (w.extractLsb' 26 6).toNat ∧ functOf w = (w.extractLsb' 0 6).toNat ∧
    (∀ p ∈ ([(0x20, Instr.add), (0x21, Instr.addu), (0x22, Instr.sub), (0x23, Instr.subu),
       (0x24, Instr.and), (0x25, Instr.or), (0x26, Instr.xor), (0x27, Instr.nor),
       (0x2A, Instr.slt), (0x2B, Instr.sltu)] : List (Nat × (Nat → Nat → Nat → Instr))),
      opcodeOf w = 0 → functOf w = p.1 → decodeWord w = .ok (p.2 rd rs rt)) ∧
    (∀ p ∈ ([(0x04, Instr.sllv), (0x06, Instr.srlv), (0x07, Instr.srav)]
       : List (Nat × (Nat → Nat → Nat → Instr))),
      opcodeOf w = 0 → functOf w = p.1 → decodeWord w = .ok (p.2 rd rt rs)) ∧
    (∀ p ∈ ([(0x00, Instr.sll), (0x02, Instr.srl), (0x03, Instr.sra)]
       : List (Nat × (Nat → Nat → BitVec 5 → Instr))),
      opcodeOf w = 0 → functOf w = p.1 → decodeWord w = .ok (p.2 rd rt shamt)) ∧
    (∀ p ∈ ([(0x18, Instr.mult), (0x19, Instr.multu), (0x1A, Instr.div), (0x1B, Instr.divu)]
       : List (Nat × (Nat → Nat → Instr))),
      opcodeOf w = 0 → functOf w = p.1 → decodeWord w = .ok (p.2 rs rt)) ∧
    (opcodeOf w = 0 → functOf w = 0x09 → decodeWord w = .ok (.jalr rd rs)) ∧
    (∀ p ∈ ([(0x08, Instr.jr), (0x11, Instr.mthi), (0x13, Instr.mtlo)] : List (Nat × (Nat → Instr))),
      opcodeOf w = 0 → functOf w = p.1 → decodeWord w = .ok (p.2 rs)) ∧
    (∀ p ∈ ([(0x10, Instr.mfhi), (0x12, Instr.mflo)] : List (Nat × (Nat → Instr))),
      opcodeOf w = 0 → functOf w = p.1 → decodeWord w = .ok (p.2 rd)) ∧
    (∀ p ∈ ([(0x0C, Instr.syscall), (0x0D, Instr.brk)] : List (Nat × Instr)),
      opcodeOf w = 0 → functOf w = p.1 → decodeWord w = .ok p.2) ∧
    (∀ p ∈ ([(0x08, Instr.addi), (0x09, Instr.addiu), (0x0A, Instr.slti), (0x0B, Instr.sltiu),
       (0x0C, Instr.andi), (0x0D, Instr.ori), (0x0E, Instr.xori)]
       : List (Nat × (Nat → Nat → Half → Instr))),
      opcodeOf w = p.1 → decodeWord w = .ok (p.2 rt rs imm)) ∧
    (∀ p ∈ ([(0x04, Instr.beq), (0x05, Instr.bne)] : List (Nat × (Nat → Nat → Half → Instr))),
      opcodeOf w = p.1 → decodeWord w = .ok (p.2 rs rt imm)) ∧
    (∀ p ∈ ([(0x06, Instr.blez), (0x07, Instr.bgtz)] : List (Nat × (Nat → Half → Instr))),
      opcodeOf w = p.1 → decodeWord w = .ok (p.2 rs imm)) ∧
    (opcodeOf w = 0x0F → decodeWord w = .ok (.lui rt imm)) ∧
    (∀ p ∈ ([(0x20, Instr.lb), (0x21, Instr.lh), (0x23, Instr.lw), (0x24, Instr.lbu), (0x25, Instr.lhu),
       (0x28, Instr.sb), (0x29, Instr.sh), (0x2B, Instr.sw)] : List (Nat × (Nat → Half → Nat → Instr))),
      opcodeOf w = p.1 → decodeWord w = .ok (p.2 rt imm rs)) ∧
    (∀ p ∈ ([(0x02, Instr.j), (0x03, Instr.jal)] : List (Nat × (BitVec 26 → Instr))),
      opcodeOf w = p.1 → decodeWord w = .ok (p.2 target)) ∧
    (opcodeOf w = 0x1A → decodeWord w = .ok .trap)

/-- Only the opcode, and for opcode 0 the function code, select a row (30 R83). -/
def Obligations.OnlyTheKeySelectsTheRow : Prop :=
  ∀ w w' : Word, opcodeOf w = opcodeOf w' → (opcodeOf w = 0 → functOf w = functOf w') →
    (decodeWord w).map Instr.mnemonic = (decodeWord w').map Instr.mnemonic

/-- Every word decodes to exactly one row or fails: the opcode map and the function map, where a code that is
not listed is a decode failure (30 R90). -/
def Obligations.EveryWordHasOneRowOrFails : Prop :=
  ∀ w : Word, (decodeWord w).toOption.map Instr.mnemonic =
    if opcodeOf w = 0 then List.lookup (functOf w)
      [(0x00, "sll"), (0x02, "srl"), (0x03, "sra"), (0x04, "sllv"), (0x06, "srlv"), (0x07, "srav"),
        (0x08, "jr"), (0x09, "jalr"), (0x0C, "syscall"), (0x0D, "break"), (0x10, "mfhi"),
        (0x11, "mthi"), (0x12, "mflo"), (0x13, "mtlo"), (0x18, "mult"), (0x19, "multu"), (0x1A, "div"),
        (0x1B, "divu"), (0x20, "add"), (0x21, "addu"), (0x22, "sub"), (0x23, "subu"), (0x24, "and"),
        (0x25, "or"), (0x26, "xor"), (0x27, "nor"), (0x2A, "slt"), (0x2B, "sltu")]
    else List.lookup (opcodeOf w)
      [(0x02, "j"), (0x03, "jal"), (0x04, "beq"), (0x05, "bne"), (0x06, "blez"), (0x07, "bgtz"),
        (0x08, "addi"), (0x09, "addiu"), (0x0A, "slti"), (0x0B, "sltiu"), (0x0C, "andi"), (0x0D, "ori"),
        (0x0E, "xori"), (0x0F, "lui"), (0x1A, "trap"), (0x20, "lb"), (0x21, "lh"), (0x23, "lw"),
        (0x24, "lbu"), (0x25, "lhu"), (0x28, "sb"), (0x29, "sh"), (0x2B, "sw")]

/-- Words of the spec decode to the instructions it says (30 R95, 41 R174, R183, 43 R220, R225, 44 and 45
by 95 section 2.1 and section 3). -/
def Obligations.SampleWordsDecode : Prop :=
  decodeWord 0x012A4020#32 = .ok (.add 8 9 10) ∧
  (9#32 <<< 21) ||| (10#32 <<< 16) ||| (8#32 <<< 11) ||| 0x20#32 = 0x012A4020#32 ∧
  (Instr.add 8 9 10).row = { src1 := 9, src2 := 10, dst := 8 } ∧ shamtOf 0x012A4020#32 = 0#5 ∧
  decodeWord 0x20090005#32 = .ok (.addi 9 0 5#16) ∧
  decodeWord 0x3C081001#32 = .ok (.lui 8 0x1001#16) ∧
  decodeWord 0x1000FFFF#32 = .ok (.beq 0 0 0xFFFF#16) ∧
  decodeWord 0x0C100007#32 = .ok (.jal 0x0100007#26) ∧
  decodeWord 0x03E00808#32 = .ok (.jr 31) ∧
  decodeWord 0x0109001A#32 = .ok (.div 8 9) ∧
  decodeWord 0xAD090000#32 = .ok (.sw 9 0#16 8) ∧
  decodeWord 0x68000000#32 = .ok .trap ∧
  (Instr.add 8 9 10).render = "add $t0, $t1, $t2"

/-! ### Reset and loading (10 R43, 70 R300, R301, 20 R55) -/

/-- The reset values of every piece of state, for every setting of the parameters (10 R43). -/
def Obligations.ResetValues : Prop :=
  ∀ (p : Params) (n : Counter) (m : Memory),
    (State.resetWith p n m).readSlot 0 = 0#32 ∧
    (∀ i, (State.resetWith p n m).isPending i = false) ∧
    (∀ i, 0 < i → i < 34 →
      (p.rfInit.lookup i = none → (State.resetWith p n m).isWritten i = false) ∧
      (∀ v, p.rfInit.lookup i = some v →
        (State.resetWith p n m).isWritten i = true ∧ (State.resetWith p n m).readSlot i = v)) ∧
    (State.resetWith p n m).pc = p.textBase ∧ (State.resetWith p n m).pcValid = true ∧
    (State.resetWith p n m).retired = 0#64 ∧ (State.resetWith p n m).cycle = 0#64 ∧
    (State.resetWith p n m).target = n ∧ (State.resetWith p n m).hold = none ∧
    (State.resetWith p n m).f2d = Port.empty ∧ (State.resetWith p n m).d2e = Port.empty ∧
    (State.resetWith p n m).e2m = Port.empty ∧ (State.resetWith p n m).m2w = Port.empty ∧
    (State.resetWith p n m).d2f = Port.empty ∧ (State.resetWith p n m).e2d = Port.empty ∧
    (State.resetWith p n m).m2e = Port.empty ∧ (State.resetWith p n m).w2m = Port.empty ∧
    (State.resetWith p n m).fatal = none ∧ (State.resetWith p n m).mem = m ∧
    (p.mapGranularity = .byte → ∀ a, (State.resetWith p n m).byteAt a = lookupByte m a) ∧
    (∀ a, (State.resetWith p n []).byteAt a = none) ∧ Params.specDefault.rfInit = []

/-- THE MODEL'S CHOICE (log 4, log 6, log 7): in `State.reset` every register holds 0, the pc is the start of
the spec's test programs, nothing is loaded and a cycle may start. -/
def Obligations.ModelResetState : Prop :=
  State.reset = State.resetWith Params.atReset targetAtReset [] ∧
  (∀ i, i < 34 → State.reset.isWritten i = true ∧ State.reset.readSlot i = 0#32) ∧
  State.reset.pc = 0x00400000#32 ∧ State.reset.mem = [] ∧ State.reset.isRunning = true

/-- An image without a `.text` section, or with a section that runs past the address space, starts no run
(70 R301, 20 R55; which refusal comes first is log 16). -/
def Obligations.BootRefusesBadImages : Prop :=
  ∀ (p : Params) (n : Counter) (image : List Section),
    ((∀ c ∈ image, c.wellFormed = true) → (∀ c ∈ image, c.name ≠ textName) →
      boot p n image = .refused .noTextSection) ∧
    ((∃ c ∈ image, c.inAddressSpace = false) →
      ∃ name, boot p n image = .refused (.malformedSection name))

/-- A well-formed image whose bytes can be stored starts a run at its last `.text` section, with the reset
values, and each byte holds what the last section that covers it says (20 R55, 70 R300, R301). The first newly
mapped byte that cannot be stored is the loader's AllocationFailure, and neither it nor a later byte is written
(20 R68, 60 R271). THE MODEL'S CHOICES in it: the cycle and stage of that record (log 16); that it is raised with
a target of 0 too, where 70 R302 says that no Fatal can occur, and the state it leaves (log 21); and that under the
page granularity only the sections' own bytes need storage, not the rest of the chunks they map (log 11). -/
def Obligations.BootLoadsTheSections : Prop :=
  (∀ (p : Params) (n : Counter) (before : List Section) (text : Section) (after : List Section),
    (∀ c ∈ before ++ text :: after, c.wellFormed = true) →
    text.name = textName → (∀ c ∈ after, c.name ≠ textName) →
    (∀ c ∈ before ++ text :: after, ∀ x, covers c x → x ∉ p.unstorable) →
    ∃ t, boot p n (before ++ text :: after) = .next t ∧
      t = State.resetWith { p with textBase := BitVec.ofNat 32 text.start } n t.mem ∧
      (∀ a, (∀ c ∈ before ++ text :: after, ¬ covers c a) → lookupByte t.mem a = none) ∧
      (∀ (front : List Section) (d : Section) (back : List Section) (a : Nat),
        before ++ text :: after = front ++ d :: back → covers d a → (∀ c ∈ back, ¬ covers c a) →
        t.byteAt a = d.content[a - d.start]?)) ∧
  ∀ (p : Params) (n : Counter) (front : List Section) (d : Section) (back : List Section) (k : Nat),
    (∀ c ∈ front ++ d :: back, c.wellFormed = true) → (∃ c ∈ front ++ d :: back, c.name = textName) →
    (∀ c ∈ front, ∀ x, covers c x → x ∉ p.unstorable) →
    (∀ x, d.start ≤ x → x < d.start + k → x ∉ p.unstorable) →
    k < d.size → d.start + k ∈ p.unstorable →
    (p.mapGranularity = .page → ∀ x, ((∃ c ∈ front, covers c x) ∨ (d.start ≤ x ∧ x < d.start + k)) →
      sameChunk x (d.start + k) = false) →
    ∃ t, boot p n (front ++ d :: back) = .next t ∧
      t.fatal = some ⟨.allocationFailure, .address (d.start + k), 0#64, .loader⟩ ∧
      ∀ x, (∀ c ∈ front, ¬ covers c x) → ¬ (d.start ≤ x ∧ x < d.start + k) → lookupByte t.mem x = none

/-! ### The register file (10) -/

/-- Slot 0 is hard-wired (10 R21). -/
def Obligations.SlotZeroIsHardwired : Prop :=
  ∀ (s : State) (v : Word),
    s.readSlot 0 = 0#32 ∧ s.isPending 0 = false ∧ s.isWritten 0 = true ∧ s.invalidate 0 = s ∧
    s.setSlot 0 v = s ∧ s.writeCheck 0 = none

/-- A write to slot 0 does nothing; to another slot it fails unless the slot is pending, and else it gives the
slot its value, makes it written and not pending, and leaves the other slots (10 R25, also HI and LO: R26). -/
def Obligations.SlotWrite : Prop :=
  ∀ (s : State) (i : Nat) (v : Word),
    (i = 0 → s.writeCheck i = none ∧ s.setSlot i v = s) ∧
    (i ≠ 0 → i < 34 →
      (s.isPending i = false → s.writeCheck i = some ⟨.pendingWriteViolation, .slot i⟩) ∧
      (s.isPending i = true → s.writeCheck i = none) ∧
      (s.setSlot i v).readSlot i = v ∧ (s.setSlot i v).isPending i = false ∧
      (s.setSlot i v).isWritten i = true ∧ (∀ j, j ≠ i → SameSlot s (s.setSlot i v) j) ∧
      s.setSlot i v = { s with rf := (s.setSlot i v).rf })

/-- `invalidate` sets the pending bit, also of a pending slot, changes nothing else, and is a no-op for slot 0
(10 R24). -/
def Obligations.SlotInvalidate : Prop :=
  ∀ (s : State) (i : Nat),
    (i = 0 → s.invalidate i = s) ∧
    (i ≠ 0 → i < 34 →
      (s.invalidate i).isPending i = true ∧ (s.invalidate i).readSlot i = s.readSlot i ∧
      (s.invalidate i).isWritten i = s.isWritten i ∧ (∀ j, j ≠ i → SameSlot s (s.invalidate i) j) ∧
      s.invalidate i = { s with rf := (s.invalidate i).rf })

/-! ### Memory (20) -/

/-- A read gives the bytes of the range, least significant first, and fails at the first bad byte, out of
range before unmapped (20 R53, 60 R273). -/
def Obligations.ReadGivesTheBytes : Prop :=
  ∀ (s : State) (c : Cause) (a n : Nat),
    (∀ v, memRead s c a n = .ok v ↔
      v < 256 ^ n ∧ ∀ k < n, a + k < 2 ^ 32 ∧ s.byteAt (a + k) = some (BitVec.ofNat 8 (v / 256 ^ k))) ∧
    (∀ stop, memRead s c a n = .error stop ↔
      ∃ k < n, (∀ j < k, a + j < 2 ^ 32 ∧ (s.byteAt (a + j)).isSome = true) ∧
        ((2 ^ 32 ≤ a + k ∧ stop = ⟨.addressOutOfRange, .address (a + k)⟩) ∨
          (a + k < 2 ^ 32 ∧ s.byteAt (a + k) = none ∧ stop = ⟨c, .address (a + k)⟩)))

/-- A write followed by a read of the same width returns the value masked to the width, at every address and
width, across page and set boundaries (20 R53, R54; 95 V2); and little-endian: a narrower read inside the
written bytes returns the corresponding bytes, at the same address the low-order ones (20 R57). -/
def Obligations.WriteThenReadReturnsTheValue : Prop :=
  ∀ (s t : State) (c : Cause) (a n v : Nat), memWrite s a n v = .ok t →
    memRead t c a n = .ok (v % 256 ^ n) ∧
    ∀ k m, k + m ≤ n → memRead t c (a + k) m = .ok (v / 256 ^ k % 256 ^ m)

/-- A write that runs past the address space is AddressOutOfRange at 2^32 (20 R54); inside it, the first newly
mapped byte that the environment cannot store is AllocationFailure (20 R68; log 11); every other write succeeds,
gives the bytes of the range the value's bytes, the lowest first, and changes nothing else; under the page
granularity it maps the rest of the chunks it touches, with their free values (20 R56; log 9, log 10). -/
def Obligations.WriteStoresItsBytesOnly : Prop :=
  ∀ (s : State) (a n v : Nat),
    (0 < n → a < 2 ^ 32 → 2 ^ 32 < a + n →
      memWrite s a n v = .error ⟨.addressOutOfRange, .address (2 ^ 32)⟩) ∧
    (a + n ≤ 2 ^ 32 →
      (∀ x, FirstUnstorable s a n x → memWrite s a n v = .error ⟨.allocationFailure, .address x⟩) ∧
      (Storable s a n →
        ∃ t, memWrite s a n v = .ok t ∧ t = { s with mem := t.mem } ∧
          (∀ k < n, t.byteAt (a + k) = some (BitVec.ofNat 8 (v / 256 ^ k))) ∧
          SameBytesOutside s t a n))

/-- THE MODEL'S FORM OF MEMORY (log 10): the list of the touched bytes (20 R51), strictly rising and inside the
address space, is kept so by every step, from every state that has it. -/
def Obligations.StepKeepsMemoryCanonical : Prop :=
  ∀ s t : State, Memory.wf s.mem = true → step s = .next t → Memory.wf t.mem = true

/-! ### The decode stage (40 R116, R117, 30 R84) -/

/-- The issue of every instruction (40 R116 steps 6 and 7): sources read, destinations marked pending, the
record sent on, the hold register emptied, and the pc advanced, or made invalid by a jump. -/
def Obligations.IssueReadsSourcesAndMarksDestinations : Prop :=
  ∀ (i : Instr) (f : Fetched) (s : State), i.wellFormed = true → AtDecode s f →
    s.isPending i.src1 = false → s.isPending i.src2 = false →
    (s.params.wawInterlock = true → s.isPending i.dst = false ∧ s.isPending i.dst2 = false) →
    s.isWritten i.src1 = true → s.isWritten i.src2 = true →
    ∃ t, exec i s = .next t ∧
      t.d2e = s.d2e.write
        { recordOf i f with v1 := s.readSlot i.src1, v2 := s.readSlot i.src2 } ∧
      t.trace.decode = { recordOf i f with v1 := s.readSlot i.src1, v2 := s.readSlot i.src2 } ∧
      t.hold = none ∧ t.d2f = s.d2f ∧ t.fatal = s.fatal ∧
      (i.isJump = true → t.pcValid = false ∧ t.pc = s.pc) ∧
      (i.isJump = false → t.pcValid = s.pcValid ∧ t.pc = s.pc + 4#32) ∧
      (∀ j, t.readSlot j = s.readSlot j ∧ t.isWritten j = s.isWritten j) ∧
      (∀ j, t.isPending j = true ↔ s.isPending j = true ∨ (j ≠ 0 ∧ (j = i.dst ∨ j = i.dst2))) ∧
      SameOutsideDecode s t

/-- A pending source, or under WAW_INTERLOCK a pending destination, stalls every instruction: it is held,
fetch is stalled, the trace shows a bubble, and nothing else changes (40 R116 step 4, R117, R126). -/
def Obligations.PendingOperandStallsDecode : Prop :=
  ∀ (i : Instr) (f : Fetched) (s : State), AtDecode s f →
    (s.isPending i.src1 = true ∨ s.isPending i.src2 = true ∨
      (s.params.wawInterlock = true ∧ (s.isPending i.dst = true ∨ s.isPending i.dst2 = true))) →
    ∃ t, exec i s = .next t ∧ t.hold = some f ∧ t.d2f = s.d2f.write true ∧ t.rf = s.rf ∧
      t.pc = s.pc ∧ t.pcValid = s.pcValid ∧ t.d2e = s.d2e ∧ t.fatal = s.fatal ∧
      t.trace.decode = InstrRecord.null ∧ SameOutsideDecode s t

/-- An unwritten source that is not stalled on is a Fatal, `src1` before `src2` (40 R116 step 5, 10 R27,
60 R273). -/
def Obligations.UnwrittenSourceIsFatal : Prop :=
  ∀ (i : Instr) (f : Fetched) (s : State), AtDecode s f →
    s.isPending i.src1 = false → s.isPending i.src2 = false →
    (s.params.wawInterlock = true → s.isPending i.dst = false ∧ s.isPending i.dst2 = false) →
    (s.isWritten i.src1 = false →
      exec i s = .next (s.raise ⟨.uninitializedRegister, .slot i.src1⟩)) ∧
    (s.isWritten i.src1 = true → s.isWritten i.src2 = false →
      exec i s = .next (s.raise ⟨.uninitializedRegister, .slot i.src2⟩))

/-- A word without a row is a Fatal when the decode stage decodes it, and nothing else changes (30 R84). -/
def Obligations.DecodeFailureIsFatal : Prop :=
  ∀ (s : State) (f : Fetched) (e : DecodeError),
    s.e2d.readStall s.params.stallLatency ≠ some true → s.decodeInput = some f →
    decodeWord f.word = .error e →
    decodeStage s =
      .next (State.raise { s with stage := .decode } ⟨.decodeFailure, .word f.word f.pc⟩)

/-! ### The writeback stage (40 R115) -/

/-- The retirement of every instruction whose destinations are pending (40 R115, 10 R25): the destinations
take their values and are no longer pending, the counter advances, a jump redirects the pc, the trace shows the
record (R126), and nothing else changes. -/
def Obligations.RetirementWritesDestinations : Prop :=
  ∀ (i : Instr) (r : InstrRecord) (s : State), i.wellFormed = true → AtWriteback s r →
    (i.dst = 0 ∨ s.isPending i.dst = true) → (i.dst2 = 0 ∨ s.isPending i.dst2 = true) →
    ∃ t, exec i s = .next t ∧ t.retired = s.retired + 1#64 ∧ t.trace.writeback = r ∧
      (i.dst ≠ 0 → t.readSlot i.dst = r.result ∧ t.isPending i.dst = false ∧
        t.isWritten i.dst = true) ∧
      (i.dst2 ≠ 0 → t.readSlot i.dst2 = r.result2 ∧ t.isPending i.dst2 = false ∧
        t.isWritten i.dst2 = true) ∧
      (∀ j, j = 0 ∨ (j ≠ i.dst ∧ j ≠ i.dst2) → SameSlot s t j) ∧
      (i.isJump = true → t.pc = r.newPc ∧ t.pcValid = true) ∧
      (i.isJump = false → t.pc = s.pc ∧ t.pcValid = s.pcValid) ∧
      SameOutsideWriteback s t

/-- A destination that is not pending at writeback is a Fatal, `dst` before `dst2`, and neither is written
(40 R115, 10 R25, 60 R273). -/
def Obligations.UnpendingWriteIsFatal : Prop :=
  ∀ (i : Instr) (r : InstrRecord) (s : State), AtWriteback s r →
    (i.dst ≠ 0 → s.isPending i.dst = false →
      exec i s = .next (s.raise ⟨.pendingWriteViolation, .slot i.dst⟩)) ∧
    ((i.dst = 0 ∨ s.isPending i.dst = true) → i.dst2 ≠ 0 → s.isPending i.dst2 = false →
      exec i s = .next (s.raise ⟨.pendingWriteViolation, .slot i.dst2⟩))

/-! ### The execute stage: frame -/

/-- Whatever an instruction does in the execute stage, it changes only E2M, its trace entry and the fatal
status: no register, no byte of memory, no pc (40 R119). -/
def Obligations.ExecuteStageFrame : Prop :=
  ∀ (i : Instr) (s t : State) (r : InstrRecord), AtExecute s r → exec i s = .next t →
    SameButExecuteOutput s t ∧
    ((t.fatal = s.fatal ∧ ∃ r', t.e2m = s.e2m.write r' ∧ t.trace.execute = r' ∧ SameInstruction r r') ∨
      (t.fatal.isSome = true ∧ t.e2m = s.e2m ∧ t.trace = s.trace))

/-! ### The execute stage: integer ALU (41) -/

/-- `addu`, `subu` and `addiu` complete with the wrapped result (41 R171, R173, R175). -/
def Obligations.WrappingArithmeticCompletes : Prop :=
  (∀ rd rs rt, HasFunct (.addu rd rs rt) 0x21 { src1 := rs, src2 := rt, dst := rd } ∧
    ExecutesTo (.addu rd rs rt) (fun _ r => { r with result := r.v1 + r.v2 })) ∧
  (∀ rd rs rt, HasFunct (.subu rd rs rt) 0x23 { src1 := rs, src2 := rt, dst := rd } ∧
    ExecutesTo (.subu rd rs rt) (fun _ r => { r with result := r.v1 - r.v2 })) ∧
  (∀ rt rs imm, HasOpcode (.addiu rt rs imm) 0x09 { src1 := rs, dst := rt } ∧
    ExecutesTo (.addiu rt rs imm) (fun _ r => { r with result := r.v1 + imm.signExtend 32 }))

/-- `add`, `sub` and `addi` complete with the exact result modulo 2^32 when it fits in the signed range, or
under OVERFLOW_MODE = wrap; otherwise they raise ArithmeticOverflow with their pc and mnemonic (41 R170,
R172, R174). -/
def Obligations.CheckedArithmetic : Prop :=
  (∀ rd rs rt, HasFunct (.add rd rs rt) 0x20 { src1 := rs, src2 := rt, dst := rd } ∧
    (∀ s r, AtExecute s r →
      ((-2 ^ 31 ≤ r.v1.toInt + r.v2.toInt ∧ r.v1.toInt + r.v2.toInt < 2 ^ 31) ∨
        s.params.overflowMode = .wrap) →
      exec (.add rd rs rt) s = .next (toMemory { r with result := r.v1 + r.v2 } s)) ∧
    ExecuteTraps (.add rd rs rt)
      (fun s r => ¬ (-2 ^ 31 ≤ r.v1.toInt + r.v2.toInt ∧ r.v1.toInt + r.v2.toInt < 2 ^ 31) ∧
        s.params.overflowMode = .fatal)
      (fun r => ⟨.arithmeticOverflow, .instr r.pc "add"⟩)) ∧
  (∀ rd rs rt, HasFunct (.sub rd rs rt) 0x22 { src1 := rs, src2 := rt, dst := rd } ∧
    (∀ s r, AtExecute s r →
      ((-2 ^ 31 ≤ r.v1.toInt - r.v2.toInt ∧ r.v1.toInt - r.v2.toInt < 2 ^ 31) ∨
        s.params.overflowMode = .wrap) →
      exec (.sub rd rs rt) s = .next (toMemory { r with result := r.v1 - r.v2 } s)) ∧
    ExecuteTraps (.sub rd rs rt)
      (fun s r => ¬ (-2 ^ 31 ≤ r.v1.toInt - r.v2.toInt ∧ r.v1.toInt - r.v2.toInt < 2 ^ 31) ∧
        s.params.overflowMode = .fatal)
      (fun r => ⟨.arithmeticOverflow, .instr r.pc "sub"⟩)) ∧
  (∀ rt rs imm, HasOpcode (.addi rt rs imm) 0x08 { src1 := rs, dst := rt } ∧
    (∀ s r, AtExecute s r →
      ((-2 ^ 31 ≤ r.v1.toInt + imm.toInt ∧ r.v1.toInt + imm.toInt < 2 ^ 31) ∨
        s.params.overflowMode = .wrap) →
      exec (.addi rt rs imm) s =
        .next (toMemory { r with result := r.v1 + imm.signExtend 32 } s)) ∧
    ExecuteTraps (.addi rt rs imm)
      (fun s r => ¬ (-2 ^ 31 ≤ r.v1.toInt + imm.toInt ∧ r.v1.toInt + imm.toInt < 2 ^ 31) ∧
        s.params.overflowMode = .fatal)
      (fun r => ⟨.arithmeticOverflow, .instr r.pc "addi"⟩))

/-- The logical operations complete (41 R176 to R183): bit `k` of the result from bit `k` of the operands,
immediates zero-extended, `lui` in the upper half. -/
def Obligations.LogicalOperationsComplete : Prop :=
  (∀ rd rs rt, HasFunct (.and rd rs rt) 0x24 { src1 := rs, src2 := rt, dst := rd } ∧
    ExecutesTo (.and rd rs rt) (fun _ r => { r with result := r.v1 &&& r.v2 })) ∧
  (∀ rd rs rt, HasFunct (.or rd rs rt) 0x25 { src1 := rs, src2 := rt, dst := rd } ∧
    ExecutesTo (.or rd rs rt) (fun _ r => { r with result := r.v1 ||| r.v2 })) ∧
  (∀ rd rs rt, HasFunct (.xor rd rs rt) 0x26 { src1 := rs, src2 := rt, dst := rd } ∧
    ExecutesTo (.xor rd rs rt) (fun _ r => { r with result := r.v1 ^^^ r.v2 })) ∧
  (∀ rd rs rt, HasFunct (.nor rd rs rt) 0x27 { src1 := rs, src2 := rt, dst := rd } ∧
    ExecutesTo (.nor rd rs rt) (fun _ r => { r with result := ~~~r.v1 &&& ~~~r.v2 })) ∧
  (∀ rt rs imm, HasOpcode (.andi rt rs imm) 0x0C { src1 := rs, dst := rt } ∧
    ExecutesTo (.andi rt rs imm)
      (fun _ r => { r with result := 0#16 ++ (r.v1.extractLsb' 0 16 &&& imm) })) ∧
  (∀ rt rs imm, HasOpcode (.ori rt rs imm) 0x0D { src1 := rs, dst := rt } ∧
    ExecutesTo (.ori rt rs imm)
      (fun _ r => { r with result := r.v1.extractLsb' 16 16 ++ (r.v1.extractLsb' 0 16 ||| imm) })) ∧
  (∀ rt rs imm, HasOpcode (.xori rt rs imm) 0x0E { src1 := rs, dst := rt } ∧
    ExecutesTo (.xori rt rs imm)
      (fun _ r => { r with result := r.v1.extractLsb' 16 16 ++ (r.v1.extractLsb' 0 16 ^^^ imm) })) ∧
  (∀ rt imm, HasOpcode (.lui rt imm) 0x0F { dst := rt } ∧
    ExecutesTo (.lui rt imm) (fun _ r => { r with result := imm ++ 0#16 }))

/-- The shifts complete (41 R185 to R190): the amount is the five-bit field, or the low five bits of the
second source; on the unsigned value a left shift multiplies modulo 2^32, a logical right shift divides, and
an arithmetic one divides the signed value, rounding down. -/
def Obligations.ShiftsComplete : Prop :=
  (∀ rd rt shamt, HasFunct (.sll rd rt shamt) 0x00 { src1 := rt, dst := rd } ∧
    ExecutesTo (.sll rd rt shamt)
      (fun _ r => { r with result := BitVec.ofNat 32 (r.v1.toNat * 2 ^ shamt.toNat) })) ∧
  (∀ rd rt shamt, HasFunct (.srl rd rt shamt) 0x02 { src1 := rt, dst := rd } ∧
    ExecutesTo (.srl rd rt shamt)
      (fun _ r => { r with result := BitVec.ofNat 32 (r.v1.toNat / 2 ^ shamt.toNat) })) ∧
  (∀ rd rt shamt, HasFunct (.sra rd rt shamt) 0x03 { src1 := rt, dst := rd } ∧
    ExecutesTo (.sra rd rt shamt)
      (fun _ r => { r with result := BitVec.ofInt 32 (r.v1.toInt / 2 ^ shamt.toNat) })) ∧
  (∀ rd rt rs, HasFunct (.sllv rd rt rs) 0x04 { src1 := rt, src2 := rs, dst := rd } ∧
    ExecutesTo (.sllv rd rt rs)
      (fun _ r => { r with result := BitVec.ofNat 32 (r.v1.toNat * 2 ^ (r.v2.toNat % 32)) })) ∧
  (∀ rd rt rs, HasFunct (.srlv rd rt rs) 0x06 { src1 := rt, src2 := rs, dst := rd } ∧
    ExecutesTo (.srlv rd rt rs)
      (fun _ r => { r with result := BitVec.ofNat 32 (r.v1.toNat / 2 ^ (r.v2.toNat % 32)) })) ∧
  (∀ rd rt rs, HasFunct (.srav rd rt rs) 0x07 { src1 := rt, src2 := rs, dst := rd } ∧
    ExecutesTo (.srav rd rt rs)
      (fun _ r => { r with result := BitVec.ofInt 32 (r.v1.toInt / 2 ^ (r.v2.toNat % 32)) }))

/-- The comparisons complete with 1 or 0 (41 R191 to R194): signed, unsigned, and with the sign-extended
immediate, which `sltiu` compares unsigned. -/
def Obligations.ComparisonsComplete : Prop :=
  (∀ rd rs rt, HasFunct (.slt rd rs rt) 0x2A { src1 := rs, src2 := rt, dst := rd } ∧
    ExecutesTo (.slt rd rs rt)
      (fun _ r => { r with result := if r.v1.toInt < r.v2.toInt then 1#32 else 0#32 })) ∧
  (∀ rd rs rt, HasFunct (.sltu rd rs rt) 0x2B { src1 := rs, src2 := rt, dst := rd } ∧
    ExecutesTo (.sltu rd rs rt)
      (fun _ r => { r with result := if r.v1.toNat < r.v2.toNat then 1#32 else 0#32 })) ∧
  (∀ rt rs imm, HasOpcode (.slti rt rs imm) 0x0A { src1 := rs, dst := rt } ∧
    ExecutesTo (.slti rt rs imm)
      (fun _ r => { r with result := if r.v1.toInt < imm.toInt then 1#32 else 0#32 })) ∧
  (∀ rt rs imm, HasOpcode (.sltiu rt rs imm) 0x0B { src1 := rs, dst := rt } ∧
    ExecutesTo (.sltiu rt rs imm)
      (fun _ r =>
        { r with result := if r.v1.toNat < (imm.signExtend 32).toNat then 1#32 else 0#32 }))

/-! ### The execute stage: multiply, divide, HI/LO (42) -/

/-- `mult` and `multu` complete with the exact product: `HI ++ LO` is the 64-bit pattern (42 R200, R201,
R204). -/
def Obligations.MultiplyIsExact : Prop :=
  (∀ rs rt, HasFunct (.mult rs rt) 0x18 { src1 := rs, src2 := rt, dst := 33, dst2 := 32 } ∧
    ∀ s r, AtExecute s r → ∃ lo hi : Word,
      exec (.mult rs rt) s = .next (toMemory { r with result := lo, result2 := hi } s) ∧
      (hi ++ lo).toInt = r.v1.toInt * r.v2.toInt) ∧
  (∀ rs rt, HasFunct (.multu rs rt) 0x19 { src1 := rs, src2 := rt, dst := 33, dst2 := 32 } ∧
    ∀ s r, AtExecute s r → ∃ lo hi : Word,
      exec (.multu rs rt) s = .next (toMemory { r with result := lo, result2 := hi } s) ∧
      (hi ++ lo).toNat = r.v1.toNat * r.v2.toNat)

/-- `div` and `divu` complete when the quotient exists: quotient to LO, remainder to HI, with
`a = q * b + r`, `|r| < |b|`, the sign of `r` that of `a`, and the quotient rounded toward zero (42 R202 to
R204). -/
def Obligations.DivideCompletes : Prop :=
  (∀ rs rt, HasFunct (.div rs rt) 0x1A { src1 := rs, src2 := rt, dst := 33, dst2 := 32 } ∧
    ∀ s r, AtExecute s r → r.v2.toInt ≠ 0 → ¬ (r.v1.toInt = -2 ^ 31 ∧ r.v2.toInt = -1) →
      ∃ q m : Word,
        exec (.div rs rt) s = .next (toMemory { r with result := q, result2 := m } s) ∧
        r.v1.toInt = q.toInt * r.v2.toInt + m.toInt ∧ |m.toInt| < |r.v2.toInt| ∧
        (m.toInt ≠ 0 → (m.toInt < 0 ↔ r.v1.toInt < 0)) ∧ q.toInt = r.v1.toInt.tdiv r.v2.toInt) ∧
  (∀ rs rt, HasFunct (.divu rs rt) 0x1B { src1 := rs, src2 := rt, dst := 33, dst2 := 32 } ∧
    ∀ s r, AtExecute s r → r.v2.toNat ≠ 0 →
      ∃ q m : Word,
        exec (.divu rs rt) s = .next (toMemory { r with result := q, result2 := m } s) ∧
        r.v1.toNat = q.toNat * r.v2.toNat + m.toNat ∧ m.toNat < r.v2.toNat)

/-- A zero divisor, and `-2^31 / -1`, are Fatals that change no register (42 R202 to R204). -/
def Obligations.DivideTraps : Prop :=
  (∀ rs rt, ExecuteTraps (.div rs rt) (fun _ r => r.v2 = 0#32)
    (fun r => ⟨.divideByZero, .instr r.pc "div"⟩)) ∧
  (∀ rs rt, ExecuteTraps (.div rs rt) (fun _ r => r.v1 = 0x80000000#32 ∧ r.v2 = 0xFFFFFFFF#32)
    (fun r => ⟨.divideOverflow, .instr r.pc "div"⟩)) ∧
  (∀ rs rt, ExecuteTraps (.divu rs rt) (fun _ r => r.v2 = 0#32)
    (fun r => ⟨.divideByZero, .instr r.pc "divu"⟩))

/-- The moves between HI, LO and the general registers complete (42 R206 to R209). -/
def Obligations.HiLoMovesComplete : Prop :=
  (∀ rd, HasFunct (.mfhi rd) 0x10 { src1 := 32, dst := rd } ∧
    ExecutesTo (.mfhi rd) (fun _ r => { r with result := r.v1 })) ∧
  (∀ rs, HasFunct (.mthi rs) 0x11 { src1 := rs, dst := 32 } ∧
    ExecutesTo (.mthi rs) (fun _ r => { r with result := r.v1 })) ∧
  (∀ rd, HasFunct (.mflo rd) 0x12 { src1 := 33, dst := rd } ∧
    ExecutesTo (.mflo rd) (fun _ r => { r with result := r.v1 })) ∧
  (∀ rs, HasFunct (.mtlo rs) 0x13 { src1 := rs, dst := 33 } ∧
    ExecutesTo (.mtlo rs) (fun _ r => { r with result := r.v1 }))

/-! ### The execute stage: branches and jumps (43) -/

/-- The branches complete with the target, or with the next word's address (43 R220 to R223). -/
def Obligations.BranchesComplete : Prop :=
  (∀ rs rt imm, HasOpcode (.beq rs rt imm) 0x04 { src1 := rs, src2 := rt } ∧ (Instr.beq rs rt imm).isJump = true ∧
    ExecutesTo (.beq rs rt imm) (fun _ r => { r with
      newPc := if r.v1 = r.v2 then r.pc + 4#32 + BitVec.ofInt 32 (imm.toInt * 4) else r.pc + 4#32 })) ∧
  (∀ rs rt imm, HasOpcode (.bne rs rt imm) 0x05 { src1 := rs, src2 := rt } ∧ (Instr.bne rs rt imm).isJump = true ∧
    ExecutesTo (.bne rs rt imm) (fun _ r => { r with
      newPc := if r.v1 ≠ r.v2 then r.pc + 4#32 + BitVec.ofInt 32 (imm.toInt * 4) else r.pc + 4#32 })) ∧
  (∀ rs imm, HasOpcode (.blez rs imm) 0x06 { src1 := rs } ∧ (Instr.blez rs imm).isJump = true ∧
    ExecutesTo (.blez rs imm) (fun _ r => { r with
      newPc := if r.v1.toInt ≤ 0 then r.pc + 4#32 + BitVec.ofInt 32 (imm.toInt * 4) else r.pc + 4#32 })) ∧
  (∀ rs imm, HasOpcode (.bgtz rs imm) 0x07 { src1 := rs } ∧ (Instr.bgtz rs imm).isJump = true ∧
    ExecutesTo (.bgtz rs imm) (fun _ r => { r with
      newPc := if 0 < r.v1.toInt then r.pc + 4#32 + BitVec.ofInt 32 (imm.toInt * 4) else r.pc + 4#32 }))

/-- The jumps complete (43 R224 to R227): `j` and `jal` keep the region of `pc + 4` and are word aligned,
`jr` and `jalr` take the register as it stands, `jal` and `jalr` link. -/
def Obligations.JumpsComplete : Prop :=
  (∀ target, HasOpcode (.j target) 0x02 {} ∧ (Instr.j target).isJump = true ∧
    ExecutesTo (.j target) (fun _ r => { r with
      newPc := BitVec.ofNat 32 ((r.pc + 4#32).toNat / 2 ^ 28 * 2 ^ 28 + target.toNat * 4) })) ∧
  (∀ target, HasOpcode (.jal target) 0x03 { dst := 31 } ∧ (Instr.jal target).isJump = true ∧
    ExecutesTo (.jal target) (fun s r => { r with
      newPc := BitVec.ofNat 32 ((r.pc + 4#32).toNat / 2 ^ 28 * 2 ^ 28 + target.toNat * 4)
      result := r.pc + s.params.linkOffset })) ∧
  (∀ rs, HasFunct (.jr rs) 0x08 { src1 := rs } ∧ (Instr.jr rs).isJump = true ∧
    ExecutesTo (.jr rs) (fun _ r => { r with newPc := r.v1 })) ∧
  (∀ rd rs, HasFunct (.jalr rd rs) 0x09 { src1 := rs, dst := rd } ∧ (Instr.jalr rd rs).isJump = true ∧
    ExecutesTo (.jalr rd rs) (fun s r => { r with
      newPc := r.v1
      result := r.pc + s.params.linkOffset }))

/-! ### Loads and stores (44) -/

/-- Every load and store completes its execute stage with the effective address and its width (44 R240 to
R248). -/
def Obligations.AddressesComplete : Prop :=
  ∀ (rt : Nat) (imm : Half) (rs : Nat),
    (HasOpcode (.lb rt imm rs) 0x20 { src1 := rs, dst := rt } ∧
      ExecutesTo (.lb rt imm rs)
        (fun _ r => { r with addr := r.v1 + imm.signExtend 32, width := 1 })) ∧
    (HasOpcode (.lbu rt imm rs) 0x24 { src1 := rs, dst := rt } ∧
      ExecutesTo (.lbu rt imm rs)
        (fun _ r => { r with addr := r.v1 + imm.signExtend 32, width := 1 })) ∧
    (HasOpcode (.lh rt imm rs) 0x21 { src1 := rs, dst := rt } ∧
      ExecutesTo (.lh rt imm rs)
        (fun _ r => { r with addr := r.v1 + imm.signExtend 32, width := 2 })) ∧
    (HasOpcode (.lhu rt imm rs) 0x25 { src1 := rs, dst := rt } ∧
      ExecutesTo (.lhu rt imm rs)
        (fun _ r => { r with addr := r.v1 + imm.signExtend 32, width := 2 })) ∧
    (HasOpcode (.lw rt imm rs) 0x23 { src1 := rs, dst := rt } ∧
      ExecutesTo (.lw rt imm rs)
        (fun _ r => { r with addr := r.v1 + imm.signExtend 32, width := 4 })) ∧
    (HasOpcode (.sb rt imm rs) 0x28 { src1 := rs, src2 := rt } ∧
      ExecutesTo (.sb rt imm rs)
        (fun _ r => { r with addr := r.v1 + imm.signExtend 32, width := 1 })) ∧
    (HasOpcode (.sh rt imm rs) 0x29 { src1 := rs, src2 := rt } ∧
      ExecutesTo (.sh rt imm rs)
        (fun _ r => { r with addr := r.v1 + imm.signExtend 32, width := 2 })) ∧
    (HasOpcode (.sw rt imm rs) 0x2B { src1 := rs, src2 := rt } ∧
      ExecutesTo (.sw rt imm rs)
        (fun _ r => { r with addr := r.v1 + imm.signExtend 32, width := 4 }))

/-- Every load completes its memory stage when its bytes are mapped, with the bytes little-endian and
extended as its rule says; a misaligned address is no exception (44 R240 to R244, 20 R57, R58). -/
def Obligations.LoadsComplete : Prop :=
  ∀ (rt : Nat) (imm : Half) (rs : Nat) (s : State) (r : InstrRecord), AtMemory s r →
    (∀ b0, r.width = 1 → s.byteAt r.addr.toNat = some b0 →
      exec (.lb rt imm rs) s = .next (toWriteback { r with result := b0.signExtend 32 } s) ∧
      exec (.lbu rt imm rs) s = .next (toWriteback { r with result := 0#24 ++ b0 } s)) ∧
    (∀ b0 b1, r.width = 2 → r.addr.toNat + 2 ≤ 2 ^ 32 → s.byteAt r.addr.toNat = some b0 →
      s.byteAt (r.addr.toNat + 1) = some b1 →
      exec (.lh rt imm rs) s =
        .next (toWriteback { r with result := (b1 ++ b0).signExtend 32 } s) ∧
      exec (.lhu rt imm rs) s = .next (toWriteback { r with result := 0#16 ++ (b1 ++ b0) } s)) ∧
    (∀ b0 b1 b2 b3, r.width = 4 → r.addr.toNat + 4 ≤ 2 ^ 32 → s.byteAt r.addr.toNat = some b0 →
      s.byteAt (r.addr.toNat + 1) = some b1 → s.byteAt (r.addr.toNat + 2) = some b2 →
      s.byteAt (r.addr.toNat + 3) = some b3 →
      exec (.lw rt imm rs) s = .next (toWriteback { r with result := b3 ++ b2 ++ b1 ++ b0 } s))

/-- A load whose read fails raises that Fatal and changes nothing else (44 R240 to R244, 20 R53). -/
def Obligations.LoadsTrap : Prop :=
  ∀ (rt : Nat) (imm : Half) (rs : Nat) (s : State) (r : InstrRecord) (stop : Stop), AtMemory s r →
    memRead s .unmappedLoad r.addr.toNat r.width = .error stop →
    ∀ i ∈ [Instr.lb rt imm rs, .lh rt imm rs, .lw rt imm rs, .lbu rt imm rs, .lhu rt imm rs],
      exec i s = .next (s.raise stop)

/-- A store of any width completes its memory stage inside the address space, unless a byte of it cannot be
stored: its bytes, at the address its execute stage computed, hold the low bytes of `v2`; every readable byte
outside them reads as before, and under the page granularity the chunks it touches are mapped; and no register,
pc or other port changes (44 R245 to R247, 20 R54, R56, R68). THE MODEL'S CHOICES in it: under the page granularity
only the store's own bytes need storage, not the rest of the chunks it newly maps (log 11); a chunk is mapped when
a byte of it was written (log 10), and its untouched bytes have free values (log 9). -/
def Obligations.StoresComplete : Prop :=
  ∀ (rt : Nat) (imm : Half) (rs : Nat) (s : State) (r : InstrRecord), AtMemory s r →
    Storable s r.addr.toNat r.width → r.addr.toNat + r.width ≤ 2 ^ 32 →
    ∀ i ∈ [Instr.sb rt imm rs, .sh rt imm rs, .sw rt imm rs],
      ∃ t, exec i s = .next t ∧ t.m2w = s.m2w.write r ∧ t.trace.memory = r ∧ t.fatal = s.fatal ∧
        (∀ k < r.width, t.byteAt (r.addr.toNat + k) = some (BitVec.ofNat 8 (r.v2.toNat / 256 ^ k))) ∧
        SameBytesOutside s t r.addr.toNat r.width ∧ SameButMemoryOutput s t

/-- A store that runs past the address space raises AddressOutOfRange at 2^32 (44 R246, R247, 20 R54), and one
inside it whose first newly mapped byte without storage is `x` raises AllocationFailure at `x` (20 R68, 60 R271;
log 11); neither writes a byte or changes anything but the fatal status. -/
def Obligations.StoresTrap : Prop :=
  ∀ (rt : Nat) (imm : Half) (rs : Nat) (s : State) (r : InstrRecord), AtMemory s r →
    ∀ i ∈ [Instr.sb rt imm rs, .sh rt imm rs, .sw rt imm rs],
      (2 ^ 32 < r.addr.toNat + r.width →
        exec i s = .next (s.raise ⟨.addressOutOfRange, .address (2 ^ 32)⟩)) ∧
      (r.addr.toNat + r.width ≤ 2 ^ 32 → ∀ x, FirstUnstorable s r.addr.toNat r.width x →
        exec i s = .next (s.raise ⟨.allocationFailure, .address x⟩))

/-- Every other instruction passes the memory stage unchanged: no byte of memory, no register (40 R120,
41 R195). -/
def Obligations.NonMemoryInstructionsPass : Prop :=
  ∀ (i : Instr) (s : State) (r : InstrRecord), i.isLoad = false → i.isStore = false → AtMemory s r →
    exec i s = .next (toWriteback r s)

/-- Whatever an instruction does in the memory stage, it changes only memory, M2W, its trace entry and the
fatal status, and only a store changes memory (40 R120). -/
def Obligations.MemoryStageFrame : Prop :=
  ∀ (i : Instr) (s t : State) (r : InstrRecord), AtMemory s r → exec i s = .next t →
    SameButMemoryOutput s t ∧ (i.isStore = false → t.mem = s.mem) ∧
    ((t.fatal = s.fatal ∧ ∃ r', t.m2w = s.m2w.write r' ∧ t.trace.memory = r' ∧ SameInstruction r r') ∨
      (t.fatal.isSome = true ∧ t.m2w = s.m2w ∧ t.mem = s.mem ∧ t.trace = s.trace))

/-! ### System instructions (45) -/

/-- `syscall`, `break` and `trap` stop the run in the execute stage under SYS_MODE = fatal, and under
SYS_MODE = nop complete with nothing computed (45 R260 to R263). -/
def Obligations.SystemInstructions : Prop :=
  HasFunct .syscall 0x0C {} ∧ HasFunct .brk 0x0D {} ∧ HasOpcode .trap 0x1A {} ∧
  ∀ p ∈ [(Instr.syscall, "syscall"), (.brk, "break"), (.trap, "trap")],
    ExecuteTraps p.1 (fun s _ => s.params.sysMode = .fatal)
      (fun r => ⟨.systemInstruction, .instr r.pc p.2⟩) ∧
    (∀ s r, AtExecute s r → s.params.sysMode = .nop → exec p.1 s = .next (toMemory r s))

/-! ### Fatal, the step and the run (40, 60) -/

/-- Raising a Fatal sets the record with the running cycle and stage and changes nothing else; a record that
is set stays (60 R272, 10 R37). -/
def Obligations.RaiseSetsTheRecordOnce : Prop :=
  ∀ (s : State) (stop : Stop),
    (s.fatal = none →
      s.raise stop = { s with fatal := some ⟨stop.cause, stop.info, s.cycle, s.stage⟩ }) ∧
    (s.fatal.isSome = true → s.raise stop = s)

/-- No step ends without a next state: every error of the block is a Fatal, which the model reads as a state
(log 1; 60 R270, R272). -/
def Obligations.EveryStepHasANextState : Prop :=
  (∀ (i : Instr) (s : State), ∃ t, exec i s = .next t) ∧ ∀ s : State, ∃ t, step s = .next t

/-- After the end of a run, done or fatal, nothing changes, for any number of steps (60 R272, R281, R282,
40 R125; that such a step answers the same state is the model's reading, log 2). -/
def Obligations.EndedRunStaysAsItIs : Prop :=
  ∀ (k : Nat) (s : State), s.fatal.isSome = true ∨ ¬ s.retired.toNat < s.target.toNat →
    Host.Core.run Sys2Proof.core k s = .next s

/-- A step runs the decoded instruction: the cycle is the writeback handler, then `exec` of the instruction
that the decode stage's word decodes to, then fetch, then `exec` of the instruction D2E delivers, then `exec`
of the one E2M delivers, then the port update (40 R110, R115 to R120, R130; log 3). -/
def Obligations.StepRunsTheDecodedInstruction : Prop :=
  ∀ (s a : State) (f : Fetched) (i : Instr), s.isRunning = true →
    writebackStage (startCycle s) = .next a → a.fatal = none →
    a.e2d.readStall a.params.stallLatency ≠ some true → a.decodeInput = some f →
    decodeWord f.word = .ok i →
    step s =
      chain (exec i { a with stage := .decode }) fun b =>
      chain (fetchStage b) fun c =>
      chain (executeStage c) fun d =>
      chain (memoryStage d) fun e => .next (endCycle e)

/-- The execute, memory and writeback handlers run the instruction their port delivers (log 3), unless they are
stalled (40 R115, R119, R120). -/
def Obligations.HandlersRunTheirInstruction : Prop :=
  ∀ (s : State) (r : InstrRecord),
    (s.m2w.out = some r → writebackStage s = exec r.op { s with stage := .writeback }) ∧
    (s.d2e.out = some r → s.m2e.readStall s.params.stallLatency ≠ some true →
      executeStage s = exec r.op { s with stage := .execute }) ∧
    (s.e2m.out = some r → s.w2m.readStall s.params.stallLatency ≠ some true →
      memoryStage s = exec r.op { s with stage := .memory })

/-- The end of a cycle (40 R110, R114): in every latency-1 port the value written in the cycle becomes the one
its reader sees next, or the port holds nothing, whatever it delivered before; in a latency-0 port nothing stays;
the cycle counter advances, and nothing else changes. A stall port delivers the value of the cycle before under
latency 1, and the value written in this cycle under latency 0 (R111, R113). -/
def Obligations.EndOfCycleUpdatesThePorts : Prop :=
  ∀ s : State,
    (endCycle s).f2d = ⟨s.f2d.written, none⟩ ∧ (endCycle s).d2e = ⟨s.d2e.written, none⟩ ∧
    (endCycle s).e2m = ⟨s.e2m.written, none⟩ ∧ (endCycle s).m2w = ⟨s.m2w.written, none⟩ ∧
    (s.params.stallLatency = .one →
      (endCycle s).d2f = ⟨s.d2f.written, none⟩ ∧ (endCycle s).e2d = ⟨s.e2d.written, none⟩ ∧
      (endCycle s).m2e = ⟨s.m2e.written, none⟩ ∧ (endCycle s).w2m = ⟨s.w2m.written, none⟩) ∧
    (s.params.stallLatency = .zero →
      (endCycle s).d2f = ⟨none, none⟩ ∧ (endCycle s).e2d = ⟨none, none⟩ ∧
      (endCycle s).m2e = ⟨none, none⟩ ∧ (endCycle s).w2m = ⟨none, none⟩) ∧
    (endCycle s).cycle = s.cycle + 1#64 ∧ (endCycle s).stage = .writeback ∧
    (endCycle s).rf = s.rf ∧ (endCycle s).pc = s.pc ∧ (endCycle s).pcValid = s.pcValid ∧
    (endCycle s).retired = s.retired ∧ (endCycle s).target = s.target ∧ (endCycle s).hold = s.hold ∧
    (endCycle s).fatal = s.fatal ∧ (endCycle s).mem = s.mem ∧ (endCycle s).trace = s.trace ∧
    (endCycle s).params = s.params ∧
    ∀ (p : Port Bool) (v : Bool),
      (p.write v).update.readStall .one = some v ∧ p.update.update.readStall .one = none ∧
      (p.write v).readStall .one = p.readStall .one ∧
      (p.write v).readStall .zero = some v ∧ (p.updateStall .zero).readStall .zero = none

/-- The fetch stage (40 R118): nothing while it is stalled or the pc is invalid, else the little-endian word
at the pc to F2D, or the Fatal of the read; it never changes the pc. It is stalled by the stall of the cycle
before under STALL_LATENCY = 1, and by the stall of this cycle under 0 (R111, R113). -/
def Obligations.FetchStageReadsTheWordAtPc : Prop :=
  ∀ s : State,
    (FetchIsStalled s ∨ s.pcValid = false →
      fetchStage s = .next { s with stage := .fetch, trace := { s.trace with fetch := none } }) ∧
    (¬ FetchIsStalled s → s.pcValid = true →
      (∀ stop, memRead s .unmappedFetch s.pc.toNat 4 = .error stop →
        fetchStage s = .next (State.raise { s with stage := .fetch } stop)) ∧
      (∀ b0 b1 b2 b3, s.pc.toNat + 4 ≤ 2 ^ 32 → s.byteAt s.pc.toNat = some b0 →
        s.byteAt (s.pc.toNat + 1) = some b1 → s.byteAt (s.pc.toNat + 2) = some b2 →
        s.byteAt (s.pc.toNat + 3) = some b3 →
        fetchStage s = .next { s with
          stage := .fetch
          f2d := s.f2d.write ⟨b3 ++ b2 ++ b1 ++ b0, s.pc⟩
          trace := { s.trace with fetch := some ⟨b3 ++ b2 ++ b1 ++ b0, s.pc⟩ } }))

/-- The record of a Fatal names the cycle and the stage that raised it, and the cycle stops there: the cycle
counter does not advance and no byte of memory has changed in that cycle (60 R272, R274, 40 R130). -/
def Obligations.FatalStopsTheCycle : Prop :=
  ∀ (s t : State) (e : FatalRecord), s.fatal = none → step s = .next t → t.fatal = some e →
    e.cycle = s.cycle ∧ t.cycle = s.cycle ∧ e.stage = t.stage ∧ e.stage ≠ .loader ∧ t.mem = s.mem

/-- A step retires at most one instruction, and never passes the target (40 R125, 10 R31). -/
def Obligations.StepRetiresAtMostOne : Prop :=
  ∀ s t : State, step s = .next t →
    (t.retired = s.retired ∨ (t.retired = s.retired + 1#64 ∧ s.m2w.out.isSome = true)) ∧
    (s.retired.toNat ≤ s.target.toNat → t.retired.toNat ≤ t.target.toNat)

/-- The parameters and the target of a run never change (40 R129, 10 R32). -/
def Obligations.StepKeepsParameters : Prop :=
  ∀ s t : State, step s = .next t → t.params = s.params ∧ t.target = s.target

/-! ### The engine (40 R121 to R132, 20 R66, 70 R304 to R308) -/

/-- The invariant of the engine holds at reset, for every setting of the parameters (40 R122 to R124). -/
def Obligations.ResetHasTheInvariant : Prop :=
  ∀ (p : Params) (n : Counter) (m : Memory), Memory.wf m = true → (State.resetWith p n m).Inv

/-- Every step keeps the invariant: memory canonical, the target never passed, and, until a Fatal, what waits
to be decoded was fetched at the current pc, the pc is invalid exactly while a jump is in flight, nothing waits
behind a jump, only decode stalls, a slot is pending only while its writer is in flight, and records are what
their words decode to (40 R122, R123, R124, R128, R132). -/
def Obligations.StepKeepsTheInvariant : Prop :=
  ∀ s t : State, s.Inv → step s = .next t → t.Inv

/-- A word fetched in a cycle is the word memory held before that cycle: a store of the same cycle is not
seen (20 R66). -/
def Obligations.FetchSeesEarlierStoresOnly : Prop :=
  ∀ (s t : State) (f : Fetched), EngineInv s → s.isRunning = true → step s = .next t → t.isSafe →
    t.f2d.out = some f →
    f.pc = t.pc ∧ ∃ v, memRead s .unmappedFetch f.pc.toNat 4 = .ok v ∧ f.word = BitVec.ofNat 32 v

/-- Every instruction in flight moves one stage in every cycle, and nothing else retires (40 R121, R127). -/
def Obligations.InFlightInstructionsAdvance : Prop :=
  ∀ s t : State, EngineInv s → s.isRunning = true → step s = .next t → t.isSafe →
    (s.d2e.out = none → t.e2m.out = none) ∧
    (∀ r, s.d2e.out = some r → ∃ r', t.e2m.out = some r' ∧ SameInstruction r r') ∧
    (s.e2m.out = none → t.m2w.out = none) ∧
    (∀ r, s.e2m.out = some r → ∃ r', t.m2w.out = some r' ∧ SameInstruction r r') ∧
    (s.m2w.out = none → t.retired = s.retired) ∧
    (∀ r, s.m2w.out = some r → t.retired = s.retired + 1#64 ∧ t.trace.writeback = r)

/-- An issued instruction is written back in the third cycle after its issue (40 R127). -/
def Obligations.IssuedInstructionRetiresInThreeCycles : Prop :=
  ∀ (s t : State) (r : InstrRecord), EngineInv s → s.isSafe →
    s.retired.toNat + 2 < s.target.toNat → s.d2e.out = some r →
    Host.Core.run Sys2Proof.core 3 s = .next t → t.isSafe →
    ∃ r', SameInstruction r r' ∧ t.trace.writeback = r' ∧
      (r.dst ≠ 0 → r.dst < 34 → r.dst ≠ r.dst2 →
        t.isWritten r.dst = true ∧ t.readSlot r.dst = r'.result)

/-- After a jump retires, the word fetched in that very cycle is the one at its target: there is no delay slot
(40 R124, 43 R228). -/
def Obligations.JumpTargetIsFetchedAtItsWriteback : Prop :=
  ∀ (s t : State) (r : InstrRecord), EngineInv s → s.isRunning = true → s.m2w.out = some r →
    r.op.isJump = true → step s = .next t → t.isSafe →
    t.pc = r.newPc ∧ t.pcValid = true ∧ t.hold = none ∧
    ∃ v, memRead s .unmappedFetch r.newPc.toNat 4 = .ok v ∧
      t.f2d.out = some ⟨BitVec.ofNat 32 v, r.newPc⟩

/-- While a jump is in flight nothing is issued and nothing is fetched until it retires (40 R124, 43 R229). -/
def Obligations.JumpBlocksFetchUntilItRetires : Prop :=
  ∀ (s t : State), EngineInv s → s.isRunning = true → s.jumpInFlight →
    (∀ r, s.m2w.out = some r → r.op.isJump = false) → step s = .next t → t.isSafe →
    t.jumpInFlight ∧ t.pcValid = false ∧ t.d2e.out = none ∧ t.f2d.out = none ∧ t.pc = s.pc

/-- No deadlock: a held instruction is issued within three cycles: its record, with its word and fetch address,
stands in D2E and the hold register is empty (40 R132, 70 R304). -/
def Obligations.HeldInstructionIssuesWithinThreeCycles : Prop :=
  ∀ (s t : State) (f : Fetched), EngineInv s → s.isSafe → s.retired.toNat + 2 < s.target.toNat →
    s.hold = some f → Host.Core.run Sys2Proof.core 3 s = .next t → t.isSafe →
    ∃ k u, k ≤ 3 ∧ Host.Core.run Sys2Proof.core k s = .next u ∧ u.hold = none ∧
      ∃ r, u.d2e.out = some r ∧ r.word = f.word ∧ r.pc = f.pc
end

