-- ==== Sys2Proof/Laws/State.lean ====
section
/-! SUPPORT. One lemma per field of the state for each named update: what it leaves and what it sets. No
proof needs to unfold a record update. -/

-- Fewer threads: this file has many one-line proofs.
set_option Elab.async false

namespace Sys2Proof.Machine

/-! ### raise -/
@[simp] theorem raise_rf (s : State) (stop : Stop) : (s.raise stop).rf = s.rf := by unfold State.raise; split <;> rfl
@[simp] theorem raise_pc (s : State) (stop : Stop) : (s.raise stop).pc = s.pc := by unfold State.raise; split <;> rfl
@[simp] theorem raise_pcValid (s : State) (stop : Stop) : (s.raise stop).pcValid = s.pcValid := by unfold State.raise; split <;> rfl
@[simp] theorem raise_retired (s : State) (stop : Stop) : (s.raise stop).retired = s.retired := by unfold State.raise; split <;> rfl
@[simp] theorem raise_target (s : State) (stop : Stop) : (s.raise stop).target = s.target := by unfold State.raise; split <;> rfl
@[simp] theorem raise_cycle (s : State) (stop : Stop) : (s.raise stop).cycle = s.cycle := by unfold State.raise; split <;> rfl
@[simp] theorem raise_hold (s : State) (stop : Stop) : (s.raise stop).hold = s.hold := by unfold State.raise; split <;> rfl
@[simp] theorem raise_f2d (s : State) (stop : Stop) : (s.raise stop).f2d = s.f2d := by unfold State.raise; split <;> rfl
@[simp] theorem raise_d2e (s : State) (stop : Stop) : (s.raise stop).d2e = s.d2e := by unfold State.raise; split <;> rfl
@[simp] theorem raise_e2m (s : State) (stop : Stop) : (s.raise stop).e2m = s.e2m := by unfold State.raise; split <;> rfl
@[simp] theorem raise_m2w (s : State) (stop : Stop) : (s.raise stop).m2w = s.m2w := by unfold State.raise; split <;> rfl
@[simp] theorem raise_d2f (s : State) (stop : Stop) : (s.raise stop).d2f = s.d2f := by unfold State.raise; split <;> rfl
@[simp] theorem raise_e2d (s : State) (stop : Stop) : (s.raise stop).e2d = s.e2d := by unfold State.raise; split <;> rfl
@[simp] theorem raise_m2e (s : State) (stop : Stop) : (s.raise stop).m2e = s.m2e := by unfold State.raise; split <;> rfl
@[simp] theorem raise_w2m (s : State) (stop : Stop) : (s.raise stop).w2m = s.w2m := by unfold State.raise; split <;> rfl
@[simp] theorem raise_mem (s : State) (stop : Stop) : (s.raise stop).mem = s.mem := by unfold State.raise; split <;> rfl
@[simp] theorem raise_trace (s : State) (stop : Stop) : (s.raise stop).trace = s.trace := by unfold State.raise; split <;> rfl
@[simp] theorem raise_stage (s : State) (stop : Stop) : (s.raise stop).stage = s.stage := by unfold State.raise; split <;> rfl
@[simp] theorem raise_params (s : State) (stop : Stop) : (s.raise stop).params = s.params := by unfold State.raise; split <;> rfl

/-! ### invalidate -/
@[simp] theorem invalidate_pc (s : State) (i : Nat) : (s.invalidate i).pc = s.pc := by unfold State.invalidate; split <;> rfl
@[simp] theorem invalidate_pcValid (s : State) (i : Nat) : (s.invalidate i).pcValid = s.pcValid := by unfold State.invalidate; split <;> rfl
@[simp] theorem invalidate_retired (s : State) (i : Nat) : (s.invalidate i).retired = s.retired := by unfold State.invalidate; split <;> rfl
@[simp] theorem invalidate_target (s : State) (i : Nat) : (s.invalidate i).target = s.target := by unfold State.invalidate; split <;> rfl
@[simp] theorem invalidate_cycle (s : State) (i : Nat) : (s.invalidate i).cycle = s.cycle := by unfold State.invalidate; split <;> rfl
@[simp] theorem invalidate_hold (s : State) (i : Nat) : (s.invalidate i).hold = s.hold := by unfold State.invalidate; split <;> rfl
@[simp] theorem invalidate_f2d (s : State) (i : Nat) : (s.invalidate i).f2d = s.f2d := by unfold State.invalidate; split <;> rfl
@[simp] theorem invalidate_d2e (s : State) (i : Nat) : (s.invalidate i).d2e = s.d2e := by unfold State.invalidate; split <;> rfl
@[simp] theorem invalidate_e2m (s : State) (i : Nat) : (s.invalidate i).e2m = s.e2m := by unfold State.invalidate; split <;> rfl
@[simp] theorem invalidate_m2w (s : State) (i : Nat) : (s.invalidate i).m2w = s.m2w := by unfold State.invalidate; split <;> rfl
@[simp] theorem invalidate_d2f (s : State) (i : Nat) : (s.invalidate i).d2f = s.d2f := by unfold State.invalidate; split <;> rfl
@[simp] theorem invalidate_e2d (s : State) (i : Nat) : (s.invalidate i).e2d = s.e2d := by unfold State.invalidate; split <;> rfl
@[simp] theorem invalidate_m2e (s : State) (i : Nat) : (s.invalidate i).m2e = s.m2e := by unfold State.invalidate; split <;> rfl
@[simp] theorem invalidate_w2m (s : State) (i : Nat) : (s.invalidate i).w2m = s.w2m := by unfold State.invalidate; split <;> rfl
@[simp] theorem invalidate_fatal (s : State) (i : Nat) : (s.invalidate i).fatal = s.fatal := by unfold State.invalidate; split <;> rfl
@[simp] theorem invalidate_mem (s : State) (i : Nat) : (s.invalidate i).mem = s.mem := by unfold State.invalidate; split <;> rfl
@[simp] theorem invalidate_trace (s : State) (i : Nat) : (s.invalidate i).trace = s.trace := by unfold State.invalidate; split <;> rfl
@[simp] theorem invalidate_stage (s : State) (i : Nat) : (s.invalidate i).stage = s.stage := by unfold State.invalidate; split <;> rfl
@[simp] theorem invalidate_params (s : State) (i : Nat) : (s.invalidate i).params = s.params := by unfold State.invalidate; split <;> rfl

/-! ### setSlot -/
@[simp] theorem setSlot_pc (s : State) (i : Nat) (v : Word) : (s.setSlot i v).pc = s.pc := by unfold State.setSlot; split <;> rfl
@[simp] theorem setSlot_pcValid (s : State) (i : Nat) (v : Word) : (s.setSlot i v).pcValid = s.pcValid := by unfold State.setSlot; split <;> rfl
@[simp] theorem setSlot_retired (s : State) (i : Nat) (v : Word) : (s.setSlot i v).retired = s.retired := by unfold State.setSlot; split <;> rfl
@[simp] theorem setSlot_target (s : State) (i : Nat) (v : Word) : (s.setSlot i v).target = s.target := by unfold State.setSlot; split <;> rfl
@[simp] theorem setSlot_cycle (s : State) (i : Nat) (v : Word) : (s.setSlot i v).cycle = s.cycle := by unfold State.setSlot; split <;> rfl
@[simp] theorem setSlot_hold (s : State) (i : Nat) (v : Word) : (s.setSlot i v).hold = s.hold := by unfold State.setSlot; split <;> rfl
@[simp] theorem setSlot_f2d (s : State) (i : Nat) (v : Word) : (s.setSlot i v).f2d = s.f2d := by unfold State.setSlot; split <;> rfl
@[simp] theorem setSlot_d2e (s : State) (i : Nat) (v : Word) : (s.setSlot i v).d2e = s.d2e := by unfold State.setSlot; split <;> rfl
@[simp] theorem setSlot_e2m (s : State) (i : Nat) (v : Word) : (s.setSlot i v).e2m = s.e2m := by unfold State.setSlot; split <;> rfl
@[simp] theorem setSlot_m2w (s : State) (i : Nat) (v : Word) : (s.setSlot i v).m2w = s.m2w := by unfold State.setSlot; split <;> rfl
@[simp] theorem setSlot_d2f (s : State) (i : Nat) (v : Word) : (s.setSlot i v).d2f = s.d2f := by unfold State.setSlot; split <;> rfl
@[simp] theorem setSlot_e2d (s : State) (i : Nat) (v : Word) : (s.setSlot i v).e2d = s.e2d := by unfold State.setSlot; split <;> rfl
@[simp] theorem setSlot_m2e (s : State) (i : Nat) (v : Word) : (s.setSlot i v).m2e = s.m2e := by unfold State.setSlot; split <;> rfl
@[simp] theorem setSlot_w2m (s : State) (i : Nat) (v : Word) : (s.setSlot i v).w2m = s.w2m := by unfold State.setSlot; split <;> rfl
@[simp] theorem setSlot_fatal (s : State) (i : Nat) (v : Word) : (s.setSlot i v).fatal = s.fatal := by unfold State.setSlot; split <;> rfl
@[simp] theorem setSlot_mem (s : State) (i : Nat) (v : Word) : (s.setSlot i v).mem = s.mem := by unfold State.setSlot; split <;> rfl
@[simp] theorem setSlot_trace (s : State) (i : Nat) (v : Word) : (s.setSlot i v).trace = s.trace := by unfold State.setSlot; split <;> rfl
@[simp] theorem setSlot_stage (s : State) (i : Nat) (v : Word) : (s.setSlot i v).stage = s.stage := by unfold State.setSlot; split <;> rfl
@[simp] theorem setSlot_params (s : State) (i : Nat) (v : Word) : (s.setSlot i v).params = s.params := by unfold State.setSlot; split <;> rfl

/-! ### advancePc -/
@[simp] theorem advancePc_rf (i : Instr) (s : State) : (advancePc i s).rf = s.rf := by unfold advancePc; split <;> rfl
@[simp] theorem advancePc_retired (i : Instr) (s : State) : (advancePc i s).retired = s.retired := by unfold advancePc; split <;> rfl
@[simp] theorem advancePc_target (i : Instr) (s : State) : (advancePc i s).target = s.target := by unfold advancePc; split <;> rfl
@[simp] theorem advancePc_cycle (i : Instr) (s : State) : (advancePc i s).cycle = s.cycle := by unfold advancePc; split <;> rfl
@[simp] theorem advancePc_hold (i : Instr) (s : State) : (advancePc i s).hold = s.hold := by unfold advancePc; split <;> rfl
@[simp] theorem advancePc_f2d (i : Instr) (s : State) : (advancePc i s).f2d = s.f2d := by unfold advancePc; split <;> rfl
@[simp] theorem advancePc_d2e (i : Instr) (s : State) : (advancePc i s).d2e = s.d2e := by unfold advancePc; split <;> rfl
@[simp] theorem advancePc_e2m (i : Instr) (s : State) : (advancePc i s).e2m = s.e2m := by unfold advancePc; split <;> rfl
@[simp] theorem advancePc_m2w (i : Instr) (s : State) : (advancePc i s).m2w = s.m2w := by unfold advancePc; split <;> rfl
@[simp] theorem advancePc_d2f (i : Instr) (s : State) : (advancePc i s).d2f = s.d2f := by unfold advancePc; split <;> rfl
@[simp] theorem advancePc_e2d (i : Instr) (s : State) : (advancePc i s).e2d = s.e2d := by unfold advancePc; split <;> rfl
@[simp] theorem advancePc_m2e (i : Instr) (s : State) : (advancePc i s).m2e = s.m2e := by unfold advancePc; split <;> rfl
@[simp] theorem advancePc_w2m (i : Instr) (s : State) : (advancePc i s).w2m = s.w2m := by unfold advancePc; split <;> rfl
@[simp] theorem advancePc_fatal (i : Instr) (s : State) : (advancePc i s).fatal = s.fatal := by unfold advancePc; split <;> rfl
@[simp] theorem advancePc_mem (i : Instr) (s : State) : (advancePc i s).mem = s.mem := by unfold advancePc; split <;> rfl
@[simp] theorem advancePc_trace (i : Instr) (s : State) : (advancePc i s).trace = s.trace := by unfold advancePc; split <;> rfl
@[simp] theorem advancePc_stage (i : Instr) (s : State) : (advancePc i s).stage = s.stage := by unfold advancePc; split <;> rfl
@[simp] theorem advancePc_params (i : Instr) (s : State) : (advancePc i s).params = s.params := by unfold advancePc; split <;> rfl
@[simp] theorem advancePc_pc (i : Instr) (s : State) : (advancePc i s).pc = if i.isJump then s.pc else nextPc s.pc := by unfold advancePc; split <;> rfl
@[simp] theorem advancePc_pcValid (i : Instr) (s : State) : (advancePc i s).pcValid = if i.isJump then false else s.pcValid := by unfold advancePc; split <;> rfl

/-! ### redirect -/
@[simp] theorem redirect_rf (i : Instr) (r : InstrRecord) (s : State) : (redirect i r s).rf = s.rf := by unfold redirect; split <;> rfl
@[simp] theorem redirect_retired (i : Instr) (r : InstrRecord) (s : State) : (redirect i r s).retired = s.retired := by unfold redirect; split <;> rfl
@[simp] theorem redirect_target (i : Instr) (r : InstrRecord) (s : State) : (redirect i r s).target = s.target := by unfold redirect; split <;> rfl
@[simp] theorem redirect_cycle (i : Instr) (r : InstrRecord) (s : State) : (redirect i r s).cycle = s.cycle := by unfold redirect; split <;> rfl
@[simp] theorem redirect_hold (i : Instr) (r : InstrRecord) (s : State) : (redirect i r s).hold = s.hold := by unfold redirect; split <;> rfl
@[simp] theorem redirect_f2d (i : Instr) (r : InstrRecord) (s : State) : (redirect i r s).f2d = s.f2d := by unfold redirect; split <;> rfl
@[simp] theorem redirect_d2e (i : Instr) (r : InstrRecord) (s : State) : (redirect i r s).d2e = s.d2e := by unfold redirect; split <;> rfl
@[simp] theorem redirect_e2m (i : Instr) (r : InstrRecord) (s : State) : (redirect i r s).e2m = s.e2m := by unfold redirect; split <;> rfl
@[simp] theorem redirect_m2w (i : Instr) (r : InstrRecord) (s : State) : (redirect i r s).m2w = s.m2w := by unfold redirect; split <;> rfl
@[simp] theorem redirect_d2f (i : Instr) (r : InstrRecord) (s : State) : (redirect i r s).d2f = s.d2f := by unfold redirect; split <;> rfl
@[simp] theorem redirect_e2d (i : Instr) (r : InstrRecord) (s : State) : (redirect i r s).e2d = s.e2d := by unfold redirect; split <;> rfl
@[simp] theorem redirect_m2e (i : Instr) (r : InstrRecord) (s : State) : (redirect i r s).m2e = s.m2e := by unfold redirect; split <;> rfl
@[simp] theorem redirect_w2m (i : Instr) (r : InstrRecord) (s : State) : (redirect i r s).w2m = s.w2m := by unfold redirect; split <;> rfl
@[simp] theorem redirect_fatal (i : Instr) (r : InstrRecord) (s : State) : (redirect i r s).fatal = s.fatal := by unfold redirect; split <;> rfl
@[simp] theorem redirect_mem (i : Instr) (r : InstrRecord) (s : State) : (redirect i r s).mem = s.mem := by unfold redirect; split <;> rfl
@[simp] theorem redirect_trace (i : Instr) (r : InstrRecord) (s : State) : (redirect i r s).trace = s.trace := by unfold redirect; split <;> rfl
@[simp] theorem redirect_stage (i : Instr) (r : InstrRecord) (s : State) : (redirect i r s).stage = s.stage := by unfold redirect; split <;> rfl
@[simp] theorem redirect_params (i : Instr) (r : InstrRecord) (s : State) : (redirect i r s).params = s.params := by unfold redirect; split <;> rfl
@[simp] theorem redirect_pc (i : Instr) (r : InstrRecord) (s : State) : (redirect i r s).pc = if i.isJump then r.newPc else s.pc := by unfold redirect; split <;> rfl
@[simp] theorem redirect_pcValid (i : Instr) (r : InstrRecord) (s : State) : (redirect i r s).pcValid = if i.isJump then true else s.pcValid := by unfold redirect; split <;> rfl

/-! ### holdBack -/
@[simp] theorem holdBack_rf (f : Fetched) (s : State) : (holdBack f s).rf = s.rf := rfl
@[simp] theorem holdBack_pc (f : Fetched) (s : State) : (holdBack f s).pc = s.pc := rfl
@[simp] theorem holdBack_pcValid (f : Fetched) (s : State) : (holdBack f s).pcValid = s.pcValid := rfl
@[simp] theorem holdBack_retired (f : Fetched) (s : State) : (holdBack f s).retired = s.retired := rfl
@[simp] theorem holdBack_target (f : Fetched) (s : State) : (holdBack f s).target = s.target := rfl
@[simp] theorem holdBack_cycle (f : Fetched) (s : State) : (holdBack f s).cycle = s.cycle := rfl
@[simp] theorem holdBack_f2d (f : Fetched) (s : State) : (holdBack f s).f2d = s.f2d := rfl
@[simp] theorem holdBack_d2e (f : Fetched) (s : State) : (holdBack f s).d2e = s.d2e := rfl
@[simp] theorem holdBack_e2m (f : Fetched) (s : State) : (holdBack f s).e2m = s.e2m := rfl
@[simp] theorem holdBack_m2w (f : Fetched) (s : State) : (holdBack f s).m2w = s.m2w := rfl
@[simp] theorem holdBack_e2d (f : Fetched) (s : State) : (holdBack f s).e2d = s.e2d := rfl
@[simp] theorem holdBack_m2e (f : Fetched) (s : State) : (holdBack f s).m2e = s.m2e := rfl
@[simp] theorem holdBack_w2m (f : Fetched) (s : State) : (holdBack f s).w2m = s.w2m := rfl
@[simp] theorem holdBack_fatal (f : Fetched) (s : State) : (holdBack f s).fatal = s.fatal := rfl
@[simp] theorem holdBack_mem (f : Fetched) (s : State) : (holdBack f s).mem = s.mem := rfl
@[simp] theorem holdBack_stage (f : Fetched) (s : State) : (holdBack f s).stage = s.stage := rfl
@[simp] theorem holdBack_params (f : Fetched) (s : State) : (holdBack f s).params = s.params := rfl
@[simp] theorem holdBack_d2f (f : Fetched) (s : State) : (holdBack f s).d2f = s.d2f.write true := rfl
@[simp] theorem holdBack_hold (f : Fetched) (s : State) : (holdBack f s).hold = some f := rfl
@[simp] theorem holdBack_trace (f : Fetched) (s : State) : (holdBack f s).trace = { s.trace with decode := InstrRecord.null } := rfl

/-! ### issue -/
@[simp] theorem issue_retired (i : Instr) (f : Fetched) (s : State) : (issue i f s).retired = s.retired := by simp [issue]
@[simp] theorem issue_target (i : Instr) (f : Fetched) (s : State) : (issue i f s).target = s.target := by simp [issue]
@[simp] theorem issue_cycle (i : Instr) (f : Fetched) (s : State) : (issue i f s).cycle = s.cycle := by simp [issue]
@[simp] theorem issue_f2d (i : Instr) (f : Fetched) (s : State) : (issue i f s).f2d = s.f2d := by simp [issue]
@[simp] theorem issue_e2m (i : Instr) (f : Fetched) (s : State) : (issue i f s).e2m = s.e2m := by simp [issue]
@[simp] theorem issue_m2w (i : Instr) (f : Fetched) (s : State) : (issue i f s).m2w = s.m2w := by simp [issue]
@[simp] theorem issue_d2f (i : Instr) (f : Fetched) (s : State) : (issue i f s).d2f = s.d2f := by simp [issue]
@[simp] theorem issue_e2d (i : Instr) (f : Fetched) (s : State) : (issue i f s).e2d = s.e2d := by simp [issue]
@[simp] theorem issue_m2e (i : Instr) (f : Fetched) (s : State) : (issue i f s).m2e = s.m2e := by simp [issue]
@[simp] theorem issue_w2m (i : Instr) (f : Fetched) (s : State) : (issue i f s).w2m = s.w2m := by simp [issue]
@[simp] theorem issue_fatal (i : Instr) (f : Fetched) (s : State) : (issue i f s).fatal = s.fatal := by simp [issue]
@[simp] theorem issue_mem (i : Instr) (f : Fetched) (s : State) : (issue i f s).mem = s.mem := by simp [issue]
@[simp] theorem issue_stage (i : Instr) (f : Fetched) (s : State) : (issue i f s).stage = s.stage := by simp [issue]
@[simp] theorem issue_params (i : Instr) (f : Fetched) (s : State) : (issue i f s).params = s.params := by simp [issue]
@[simp] theorem issue_rf (i : Instr) (f : Fetched) (s : State) : (issue i f s).rf = ((s.invalidate i.dst).invalidate i.dst2).rf := by simp [issue]
@[simp] theorem issue_pc (i : Instr) (f : Fetched) (s : State) : (issue i f s).pc = if i.isJump then s.pc else nextPc s.pc := by simp [issue]
@[simp] theorem issue_pcValid (i : Instr) (f : Fetched) (s : State) : (issue i f s).pcValid = if i.isJump then false else s.pcValid := by simp [issue]
@[simp] theorem issue_hold (i : Instr) (f : Fetched) (s : State) : (issue i f s).hold = none := by simp [issue]
@[simp] theorem issue_d2e (i : Instr) (f : Fetched) (s : State) : (issue i f s).d2e = s.d2e.write (issuedRecord i f s) := by simp [issue]
@[simp] theorem issue_trace (i : Instr) (f : Fetched) (s : State) : (issue i f s).trace = { s.trace with decode := issuedRecord i f s } := by simp [issue]

/-! ### retire -/
@[simp] theorem retire_target (i : Instr) (r : InstrRecord) (s : State) : (retire i r s).target = s.target := by simp [retire]
@[simp] theorem retire_cycle (i : Instr) (r : InstrRecord) (s : State) : (retire i r s).cycle = s.cycle := by simp [retire]
@[simp] theorem retire_hold (i : Instr) (r : InstrRecord) (s : State) : (retire i r s).hold = s.hold := by simp [retire]
@[simp] theorem retire_f2d (i : Instr) (r : InstrRecord) (s : State) : (retire i r s).f2d = s.f2d := by simp [retire]
@[simp] theorem retire_d2e (i : Instr) (r : InstrRecord) (s : State) : (retire i r s).d2e = s.d2e := by simp [retire]
@[simp] theorem retire_e2m (i : Instr) (r : InstrRecord) (s : State) : (retire i r s).e2m = s.e2m := by simp [retire]
@[simp] theorem retire_m2w (i : Instr) (r : InstrRecord) (s : State) : (retire i r s).m2w = s.m2w := by simp [retire]
@[simp] theorem retire_d2f (i : Instr) (r : InstrRecord) (s : State) : (retire i r s).d2f = s.d2f := by simp [retire]
@[simp] theorem retire_e2d (i : Instr) (r : InstrRecord) (s : State) : (retire i r s).e2d = s.e2d := by simp [retire]
@[simp] theorem retire_m2e (i : Instr) (r : InstrRecord) (s : State) : (retire i r s).m2e = s.m2e := by simp [retire]
@[simp] theorem retire_w2m (i : Instr) (r : InstrRecord) (s : State) : (retire i r s).w2m = s.w2m := by simp [retire]
@[simp] theorem retire_fatal (i : Instr) (r : InstrRecord) (s : State) : (retire i r s).fatal = s.fatal := by simp [retire]
@[simp] theorem retire_mem (i : Instr) (r : InstrRecord) (s : State) : (retire i r s).mem = s.mem := by simp [retire]
@[simp] theorem retire_stage (i : Instr) (r : InstrRecord) (s : State) : (retire i r s).stage = s.stage := by simp [retire]
@[simp] theorem retire_params (i : Instr) (r : InstrRecord) (s : State) : (retire i r s).params = s.params := by simp [retire]
@[simp] theorem retire_rf (i : Instr) (r : InstrRecord) (s : State) : (retire i r s).rf = ((s.setSlot i.dst r.result).setSlot i.dst2 r.result2).rf := by simp [retire]
@[simp] theorem retire_pc (i : Instr) (r : InstrRecord) (s : State) : (retire i r s).pc = if i.isJump then r.newPc else s.pc := by simp [retire]
@[simp] theorem retire_pcValid (i : Instr) (r : InstrRecord) (s : State) : (retire i r s).pcValid = if i.isJump then true else s.pcValid := by simp [retire]
@[simp] theorem retire_retired (i : Instr) (r : InstrRecord) (s : State) : (retire i r s).retired = s.retired + 1#64 := by simp [retire]
@[simp] theorem retire_trace (i : Instr) (r : InstrRecord) (s : State) : (retire i r s).trace = { s.trace with writeback := r } := by simp [retire]

/-! ### toMemory -/
@[simp] theorem toMemory_rf (r : InstrRecord) (s : State) : (toMemory r s).rf = s.rf := rfl
@[simp] theorem toMemory_pc (r : InstrRecord) (s : State) : (toMemory r s).pc = s.pc := rfl
@[simp] theorem toMemory_pcValid (r : InstrRecord) (s : State) : (toMemory r s).pcValid = s.pcValid := rfl
@[simp] theorem toMemory_retired (r : InstrRecord) (s : State) : (toMemory r s).retired = s.retired := rfl
@[simp] theorem toMemory_target (r : InstrRecord) (s : State) : (toMemory r s).target = s.target := rfl
@[simp] theorem toMemory_cycle (r : InstrRecord) (s : State) : (toMemory r s).cycle = s.cycle := rfl
@[simp] theorem toMemory_hold (r : InstrRecord) (s : State) : (toMemory r s).hold = s.hold := rfl
@[simp] theorem toMemory_f2d (r : InstrRecord) (s : State) : (toMemory r s).f2d = s.f2d := rfl
@[simp] theorem toMemory_d2e (r : InstrRecord) (s : State) : (toMemory r s).d2e = s.d2e := rfl
@[simp] theorem toMemory_m2w (r : InstrRecord) (s : State) : (toMemory r s).m2w = s.m2w := rfl
@[simp] theorem toMemory_d2f (r : InstrRecord) (s : State) : (toMemory r s).d2f = s.d2f := rfl
@[simp] theorem toMemory_e2d (r : InstrRecord) (s : State) : (toMemory r s).e2d = s.e2d := rfl
@[simp] theorem toMemory_m2e (r : InstrRecord) (s : State) : (toMemory r s).m2e = s.m2e := rfl
@[simp] theorem toMemory_w2m (r : InstrRecord) (s : State) : (toMemory r s).w2m = s.w2m := rfl
@[simp] theorem toMemory_fatal (r : InstrRecord) (s : State) : (toMemory r s).fatal = s.fatal := rfl
@[simp] theorem toMemory_mem (r : InstrRecord) (s : State) : (toMemory r s).mem = s.mem := rfl
@[simp] theorem toMemory_stage (r : InstrRecord) (s : State) : (toMemory r s).stage = s.stage := rfl
@[simp] theorem toMemory_params (r : InstrRecord) (s : State) : (toMemory r s).params = s.params := rfl
@[simp] theorem toMemory_e2m (r : InstrRecord) (s : State) : (toMemory r s).e2m = s.e2m.write r := rfl
@[simp] theorem toMemory_trace (r : InstrRecord) (s : State) : (toMemory r s).trace = { s.trace with execute := r } := rfl

/-! ### toWriteback -/
@[simp] theorem toWriteback_rf (r : InstrRecord) (s : State) : (toWriteback r s).rf = s.rf := rfl
@[simp] theorem toWriteback_pc (r : InstrRecord) (s : State) : (toWriteback r s).pc = s.pc := rfl
@[simp] theorem toWriteback_pcValid (r : InstrRecord) (s : State) : (toWriteback r s).pcValid = s.pcValid := rfl
@[simp] theorem toWriteback_retired (r : InstrRecord) (s : State) : (toWriteback r s).retired = s.retired := rfl
@[simp] theorem toWriteback_target (r : InstrRecord) (s : State) : (toWriteback r s).target = s.target := rfl
@[simp] theorem toWriteback_cycle (r : InstrRecord) (s : State) : (toWriteback r s).cycle = s.cycle := rfl
@[simp] theorem toWriteback_hold (r : InstrRecord) (s : State) : (toWriteback r s).hold = s.hold := rfl
@[simp] theorem toWriteback_f2d (r : InstrRecord) (s : State) : (toWriteback r s).f2d = s.f2d := rfl
@[simp] theorem toWriteback_d2e (r : InstrRecord) (s : State) : (toWriteback r s).d2e = s.d2e := rfl
@[simp] theorem toWriteback_e2m (r : InstrRecord) (s : State) : (toWriteback r s).e2m = s.e2m := rfl
@[simp] theorem toWriteback_d2f (r : InstrRecord) (s : State) : (toWriteback r s).d2f = s.d2f := rfl
@[simp] theorem toWriteback_e2d (r : InstrRecord) (s : State) : (toWriteback r s).e2d = s.e2d := rfl
@[simp] theorem toWriteback_m2e (r : InstrRecord) (s : State) : (toWriteback r s).m2e = s.m2e := rfl
@[simp] theorem toWriteback_w2m (r : InstrRecord) (s : State) : (toWriteback r s).w2m = s.w2m := rfl
@[simp] theorem toWriteback_fatal (r : InstrRecord) (s : State) : (toWriteback r s).fatal = s.fatal := rfl
@[simp] theorem toWriteback_mem (r : InstrRecord) (s : State) : (toWriteback r s).mem = s.mem := rfl
@[simp] theorem toWriteback_stage (r : InstrRecord) (s : State) : (toWriteback r s).stage = s.stage := rfl
@[simp] theorem toWriteback_params (r : InstrRecord) (s : State) : (toWriteback r s).params = s.params := rfl
@[simp] theorem toWriteback_m2w (r : InstrRecord) (s : State) : (toWriteback r s).m2w = s.m2w.write r := rfl
@[simp] theorem toWriteback_trace (r : InstrRecord) (s : State) : (toWriteback r s).trace = { s.trace with memory := r } := rfl

/-! ### bubble -/
@[simp] theorem bubble_rf (s : State) : (s.bubble).rf = s.rf := by unfold State.bubble; split <;> rfl
@[simp] theorem bubble_pc (s : State) : (s.bubble).pc = s.pc := by unfold State.bubble; split <;> rfl
@[simp] theorem bubble_pcValid (s : State) : (s.bubble).pcValid = s.pcValid := by unfold State.bubble; split <;> rfl
@[simp] theorem bubble_retired (s : State) : (s.bubble).retired = s.retired := by unfold State.bubble; split <;> rfl
@[simp] theorem bubble_target (s : State) : (s.bubble).target = s.target := by unfold State.bubble; split <;> rfl
@[simp] theorem bubble_cycle (s : State) : (s.bubble).cycle = s.cycle := by unfold State.bubble; split <;> rfl
@[simp] theorem bubble_hold (s : State) : (s.bubble).hold = s.hold := by unfold State.bubble; split <;> rfl
@[simp] theorem bubble_f2d (s : State) : (s.bubble).f2d = s.f2d := by unfold State.bubble; split <;> rfl
@[simp] theorem bubble_d2e (s : State) : (s.bubble).d2e = s.d2e := by unfold State.bubble; split <;> rfl
@[simp] theorem bubble_e2m (s : State) : (s.bubble).e2m = s.e2m := by unfold State.bubble; split <;> rfl
@[simp] theorem bubble_m2w (s : State) : (s.bubble).m2w = s.m2w := by unfold State.bubble; split <;> rfl
@[simp] theorem bubble_d2f (s : State) : (s.bubble).d2f = s.d2f := by unfold State.bubble; split <;> rfl
@[simp] theorem bubble_e2d (s : State) : (s.bubble).e2d = s.e2d := by unfold State.bubble; split <;> rfl
@[simp] theorem bubble_m2e (s : State) : (s.bubble).m2e = s.m2e := by unfold State.bubble; split <;> rfl
@[simp] theorem bubble_w2m (s : State) : (s.bubble).w2m = s.w2m := by unfold State.bubble; split <;> rfl
@[simp] theorem bubble_fatal (s : State) : (s.bubble).fatal = s.fatal := by unfold State.bubble; split <;> rfl
@[simp] theorem bubble_mem (s : State) : (s.bubble).mem = s.mem := by unfold State.bubble; split <;> rfl
@[simp] theorem bubble_stage (s : State) : (s.bubble).stage = s.stage := by unfold State.bubble; split <;> rfl
@[simp] theorem bubble_params (s : State) : (s.bubble).params = s.params := by unfold State.bubble; split <;> rfl

/-! ### startCycle -/
@[simp] theorem startCycle_rf (s : State) : (startCycle s).rf = s.rf := rfl
@[simp] theorem startCycle_pc (s : State) : (startCycle s).pc = s.pc := rfl
@[simp] theorem startCycle_pcValid (s : State) : (startCycle s).pcValid = s.pcValid := rfl
@[simp] theorem startCycle_retired (s : State) : (startCycle s).retired = s.retired := rfl
@[simp] theorem startCycle_target (s : State) : (startCycle s).target = s.target := rfl
@[simp] theorem startCycle_cycle (s : State) : (startCycle s).cycle = s.cycle := rfl
@[simp] theorem startCycle_hold (s : State) : (startCycle s).hold = s.hold := rfl
@[simp] theorem startCycle_f2d (s : State) : (startCycle s).f2d = s.f2d := rfl
@[simp] theorem startCycle_d2e (s : State) : (startCycle s).d2e = s.d2e := rfl
@[simp] theorem startCycle_e2m (s : State) : (startCycle s).e2m = s.e2m := rfl
@[simp] theorem startCycle_m2w (s : State) : (startCycle s).m2w = s.m2w := rfl
@[simp] theorem startCycle_d2f (s : State) : (startCycle s).d2f = s.d2f := rfl
@[simp] theorem startCycle_e2d (s : State) : (startCycle s).e2d = s.e2d := rfl
@[simp] theorem startCycle_m2e (s : State) : (startCycle s).m2e = s.m2e := rfl
@[simp] theorem startCycle_w2m (s : State) : (startCycle s).w2m = s.w2m := rfl
@[simp] theorem startCycle_fatal (s : State) : (startCycle s).fatal = s.fatal := rfl
@[simp] theorem startCycle_mem (s : State) : (startCycle s).mem = s.mem := rfl
@[simp] theorem startCycle_stage (s : State) : (startCycle s).stage = s.stage := rfl
@[simp] theorem startCycle_params (s : State) : (startCycle s).params = s.params := rfl
@[simp] theorem startCycle_trace (s : State) : (startCycle s).trace = Trace.bubbles := rfl

/-! ### endCycle -/
@[simp] theorem endCycle_rf (s : State) : (endCycle s).rf = s.rf := rfl
@[simp] theorem endCycle_pc (s : State) : (endCycle s).pc = s.pc := rfl
@[simp] theorem endCycle_pcValid (s : State) : (endCycle s).pcValid = s.pcValid := rfl
@[simp] theorem endCycle_retired (s : State) : (endCycle s).retired = s.retired := rfl
@[simp] theorem endCycle_target (s : State) : (endCycle s).target = s.target := rfl
@[simp] theorem endCycle_hold (s : State) : (endCycle s).hold = s.hold := rfl
@[simp] theorem endCycle_fatal (s : State) : (endCycle s).fatal = s.fatal := rfl
@[simp] theorem endCycle_mem (s : State) : (endCycle s).mem = s.mem := rfl
@[simp] theorem endCycle_trace (s : State) : (endCycle s).trace = s.trace := rfl
@[simp] theorem endCycle_params (s : State) : (endCycle s).params = s.params := rfl
@[simp] theorem endCycle_f2d (s : State) : (endCycle s).f2d = s.f2d.update := rfl
@[simp] theorem endCycle_d2e (s : State) : (endCycle s).d2e = s.d2e.update := rfl
@[simp] theorem endCycle_e2m (s : State) : (endCycle s).e2m = s.e2m.update := rfl
@[simp] theorem endCycle_m2w (s : State) : (endCycle s).m2w = s.m2w.update := rfl
@[simp] theorem endCycle_d2f (s : State) : (endCycle s).d2f = s.d2f.updateStall s.params.stallLatency := rfl
@[simp] theorem endCycle_e2d (s : State) : (endCycle s).e2d = s.e2d.updateStall s.params.stallLatency := rfl
@[simp] theorem endCycle_m2e (s : State) : (endCycle s).m2e = s.m2e.updateStall s.params.stallLatency := rfl
@[simp] theorem endCycle_w2m (s : State) : (endCycle s).w2m = s.w2m.updateStall s.params.stallLatency := rfl
@[simp] theorem endCycle_cycle (s : State) : (endCycle s).cycle = s.cycle + 1#64 := rfl
@[simp] theorem endCycle_stage (s : State) : (endCycle s).stage = Stage.writeback := rfl

/-! ### placeInstruction -/
@[simp] theorem placeInstruction_rf (s : State) (w : Word) : (placeInstruction s w).rf = s.rf := rfl
@[simp] theorem placeInstruction_pc (s : State) (w : Word) : (placeInstruction s w).pc = s.pc := rfl
@[simp] theorem placeInstruction_pcValid (s : State) (w : Word) : (placeInstruction s w).pcValid = s.pcValid := rfl
@[simp] theorem placeInstruction_retired (s : State) (w : Word) : (placeInstruction s w).retired = s.retired := rfl
@[simp] theorem placeInstruction_target (s : State) (w : Word) : (placeInstruction s w).target = s.target := rfl
@[simp] theorem placeInstruction_cycle (s : State) (w : Word) : (placeInstruction s w).cycle = s.cycle := rfl
@[simp] theorem placeInstruction_d2e (s : State) (w : Word) : (placeInstruction s w).d2e = s.d2e := rfl
@[simp] theorem placeInstruction_e2m (s : State) (w : Word) : (placeInstruction s w).e2m = s.e2m := rfl
@[simp] theorem placeInstruction_m2w (s : State) (w : Word) : (placeInstruction s w).m2w = s.m2w := rfl
@[simp] theorem placeInstruction_d2f (s : State) (w : Word) : (placeInstruction s w).d2f = s.d2f := rfl
@[simp] theorem placeInstruction_e2d (s : State) (w : Word) : (placeInstruction s w).e2d = s.e2d := rfl
@[simp] theorem placeInstruction_m2e (s : State) (w : Word) : (placeInstruction s w).m2e = s.m2e := rfl
@[simp] theorem placeInstruction_w2m (s : State) (w : Word) : (placeInstruction s w).w2m = s.w2m := rfl
@[simp] theorem placeInstruction_fatal (s : State) (w : Word) : (placeInstruction s w).fatal = s.fatal := rfl
@[simp] theorem placeInstruction_trace (s : State) (w : Word) : (placeInstruction s w).trace = s.trace := rfl
@[simp] theorem placeInstruction_stage (s : State) (w : Word) : (placeInstruction s w).stage = s.stage := rfl
@[simp] theorem placeInstruction_params (s : State) (w : Word) : (placeInstruction s w).params = s.params := rfl
@[simp] theorem placeInstruction_f2d (s : State) (w : Word) : (placeInstruction s w).f2d = { s.f2d with out := some { word := w, pc := s.pc } } := rfl
@[simp] theorem placeInstruction_hold (s : State) (w : Word) : (placeInstruction s w).hold = none := rfl

/-! ### raise, the fatal status -/

@[simp] theorem raise_isSome (s : State) (stop : Stop) : (s.raise stop).fatal.isSome = true := by
  unfold State.raise; split <;> simp_all

theorem raise_fatal_of_safe (s : State) (stop : Stop) (h : s.fatal = none) :
    (s.raise stop).fatal = some ⟨stop.cause, stop.info, s.cycle, s.stage⟩ := by
  simp [State.raise, h]

theorem raise_of_fatal (s : State) (stop : Stop) (h : s.fatal.isSome = true) : s.raise stop = s := by
  unfold State.raise; split <;> simp_all

/-! ### Ports -/

@[simp] theorem Port.write_out {α : Type} (p : Port α) (v : α) : (p.write v).out = p.out := rfl
@[simp] theorem Port.write_written {α : Type} (p : Port α) (v : α) : (p.write v).written = some v := rfl
@[simp] theorem Port.update_out {α : Type} (p : Port α) : p.update.out = p.written := rfl
@[simp] theorem Port.update_written {α : Type} (p : Port α) : p.update.written = none := rfl
@[simp] theorem Port.empty_out {α : Type} : (Port.empty : Port α).out = none := rfl
@[simp] theorem Port.empty_written {α : Type} : (Port.empty : Port α).written = none := rfl
@[simp] theorem Port.readStall_empty (l : StallLatency) : (Port.empty : Port Bool).readStall l = none := by
  cases l <;> rfl
@[simp] theorem Port.updateStall_empty (l : StallLatency) :
    (Port.empty : Port Bool).updateStall l = Port.empty := by
  cases l <;> rfl
@[simp] theorem Port.updateStall_written (p : Port Bool) (l : StallLatency) :
    (p.updateStall l).written = none := by
  cases l <;> rfl

end Sys2Proof.Machine
end

