-- ==== Sys2Proof/Laws/Memory.lean ====
section
/-! SUPPORT. Memory: read after write, what a write leaves alone, and that every operation keeps the
canonical form (spec 20 R51 to R54). -/

set_option Elab.async false

namespace Sys2Proof.Machine

theorem lookupByte_setByte (m : Memory) (a x : Nat) (v : Byte) :
    lookupByte (setByte m a v) x = if x = a then some v else lookupByte m x := by
  induction m with
  | nil => simp [setByte, lookupByte]
  | cons c rest ih =>
    obtain ⟨b, u⟩ := c
    unfold setByte
    split
    · simp [lookupByte]
    · split
      · next h => subst h; by_cases hx : x = a <;> simp [lookupByte, hx]
      · next h1 h2 =>
        simp only [lookupByte, ih]
        by_cases hx : x = b
        · simp [hx, Ne.symm h2]
        · simp [hx]

/-- A listed byte is exactly a byte that lookup finds, whatever the order of the list. -/
theorem lookupByte_isSome_iff (m : Memory) (x : Nat) :
    (lookupByte m x).isSome = true ↔ x ∈ m.map Prod.fst := by
  induction m with
  | nil => simp [lookupByte]
  | cons c rest ih =>
    by_cases h : x = c.1
    · simp [lookupByte, h]
    · simp [lookupByte, h, ih]

theorem mem_addrs_setByte (m : Memory) (a x : Nat) (v : Byte) :
    x ∈ (setByte m a v).map Prod.fst ↔ x = a ∨ x ∈ m.map Prod.fst := by
  rw [← lookupByte_isSome_iff, lookupByte_setByte, ← lookupByte_isSome_iff]
  by_cases h : x = a <;> simp [h]

/-- What a listed head says of a memory in canonical form. -/
theorem Memory.wf_cons (c : Host.Cell) (m : Memory) :
    Memory.wf (c :: m) = true ↔
      c.1 < Config.addrSpace ∧ (∀ x ∈ m.map Prod.fst, c.1 < x) ∧ Memory.wf m = true := by
  induction m generalizing c with
  | nil => simp [Memory.wf]
  | cons d rest ih =>
    simp only [Memory.wf, Bool.and_eq_true, decide_eq_true_eq]
    rw [ih d]
    constructor
    · rintro ⟨h1, h2, h3, h4⟩
      refine ⟨by omega, ?_, h2, h3, h4⟩
      intro x hx
      simp only [List.map_cons, List.mem_cons] at hx
      rcases hx with rfl | hx
      · exact h1
      · exact Nat.lt_trans h1 (h3 x hx)
    · rintro ⟨-, h2, h3⟩
      exact ⟨h2 d.1 (by simp), h3⟩

theorem setByte_wf (m : Memory) (a : Nat) (v : Byte) (ha : a < Config.addrSpace)
    (h : Memory.wf m = true) : Memory.wf (setByte m a v) = true := by
  induction m with
  | nil => simpa [setByte, Memory.wf] using ha
  | cons c rest ih =>
    obtain ⟨b, u⟩ := c
    rw [Memory.wf_cons] at h
    obtain ⟨h1, h2, h3⟩ := h
    unfold setByte
    split
    · next hlt =>
      rw [Memory.wf_cons]
      refine ⟨ha, ?_, (Memory.wf_cons _ _).mpr ⟨h1, h2, h3⟩⟩
      intro x hx
      simp only [List.map_cons, List.mem_cons] at hx
      rcases hx with rfl | hx
      · exact hlt
      · exact Nat.lt_trans hlt (h2 x hx)
    · split
      · next _ heq => subst heq; exact (Memory.wf_cons _ _).mpr ⟨ha, h2, h3⟩
      · next hnlt hne =>
        rw [Memory.wf_cons]
        refine ⟨h1, ?_, ih h3⟩
        intro x hx
        rcases (mem_addrs_setByte _ _ _ _).mp hx with rfl | hx
        · exact Nat.lt_of_le_of_ne (Nat.le_of_not_lt hnlt) (Ne.symm hne)
        · exact h2 x hx

theorem storeBytes_wf (m : Memory) (a n v : Nat) (hn : a + n ≤ Config.addrSpace)
    (h : Memory.wf m = true) : Memory.wf (storeBytes m a n v) = true := by
  induction n generalizing m a v with
  | zero => exact h
  | succ n ih => exact ih _ _ _ (by omega) (setByte_wf m a _ (by omega) h)

theorem lookupByte_storeBytes (m : Memory) (a n v x : Nat) :
    lookupByte (storeBytes m a n v) x =
      if a ≤ x ∧ x < a + n then some (BitVec.ofNat 8 (v / 256 ^ (x - a))) else lookupByte m x := by
  induction n generalizing m a v with
  | zero => simp [storeBytes, show ¬(a ≤ x ∧ x < a) by omega]
  | succ n ih =>
    simp only [storeBytes, ih, lookupByte_setByte]
    by_cases h1 : a + 1 ≤ x ∧ x < a + 1 + n
    · have e : x - a = (x - (a + 1)) + 1 := by omega
      rw [if_pos h1, if_pos (by omega : a ≤ x ∧ x < a + (n + 1)), Nat.div_div_eq_div_mul, e,
        Nat.pow_succ, Nat.mul_comm]
    · rw [if_neg h1]
      by_cases h2 : x = a
      · subst h2; simp
      · rw [if_neg h2, if_neg (by omega)]

/-- The range check passes exactly when every byte lies inside the address space. -/
theorem rangeCheck_eq_none (a n : Nat) :
    rangeCheck a n = none ↔ n = 0 ∨ a + n ≤ Config.addrSpace := by
  induction n generalizing a with
  | zero => simp [rangeCheck]
  | succ n ih =>
    unfold rangeCheck
    split
    · next h =>
      constructor
      · intro hc; cases hc
      · rintro (hc | hc) <;> omega
    · next h => rw [ih]; omega

/-- The storage check fails at the first newly mapped byte without storage, and only there. -/
theorem storageCheck_eq_some (s : State) (a n : Nat) (stop : Stop) :
    storageCheck s a n = some stop ↔
      ∃ x, FirstUnstorable s a n x ∧ stop = ⟨.allocationFailure, .address x⟩ := by
  induction n generalizing a with
  | zero =>
    simp only [storageCheck, reduceCtorEq, false_iff]
    rintro ⟨x, ⟨h1, h2, -⟩, -⟩
    omega
  | succ n ih =>
    unfold storageCheck
    by_cases h : s.byteAt a = none ∧ a ∈ s.params.unstorable
    · rw [if_pos (by simp [h.1, h.2]), Option.some.injEq]
      constructor
      · rintro rfl
        exact ⟨a, ⟨le_rfl, by omega, h.1, h.2, fun y _ _ => by omega⟩, rfl⟩
      · rintro ⟨x, ⟨h1, -, -, -, h5⟩, rfl⟩
        rcases Nat.eq_or_lt_of_le h1 with rfl | hx
        · rfl
        · have := h5 a le_rfl (by omega) h.2
          simp [h.1] at this
    · rw [if_neg (by simpa using h), ih]
      constructor
      · rintro ⟨x, ⟨h1, h2, h3, h4, h5⟩, rfl⟩
        refine ⟨x, ⟨by omega, by omega, h3, h4, fun y k1 k2 k3 => ?_⟩, rfl⟩
        rcases Nat.eq_or_lt_of_le k1 with rfl | hy
        · exact Option.isSome_iff_ne_none.mpr fun hn => h ⟨hn, k3⟩
        · exact h5 y hy (by omega) k3
      · rintro ⟨x, ⟨h1, h2, h3, h4, h5⟩, rfl⟩
        have hx : x ≠ a := by rintro rfl; exact h ⟨h3, h4⟩
        exact ⟨x, ⟨by omega, by omega, h3, h4, fun y k1 k2 => h5 y (by omega) (by omega)⟩, rfl⟩

/-- The storage check passes exactly when every byte of the range can be stored. -/
theorem storageCheck_eq_none (s : State) (a n : Nat) :
    storageCheck s a n = none ↔ Storable s a n := by
  induction n generalizing a with
  | zero => simp only [storageCheck, true_iff]; exact fun x _ _ => by omega
  | succ n ih =>
    unfold storageCheck
    by_cases h : s.byteAt a = none ∧ a ∈ s.params.unstorable
    · rw [if_pos (by simp [h.1, h.2])]
      simp only [reduceCtorEq, false_iff]
      intro hs
      have := hs a le_rfl (by omega) h.2
      simp [h.1] at this
    · rw [if_neg (by simpa using h), ih]
      constructor
      · intro hs x k1 k2 k3
        rcases Nat.eq_or_lt_of_le k1 with rfl | hx
        · exact Option.isSome_iff_ne_none.mpr fun hn => h ⟨hn, k3⟩
        · exact hs x hx (by omega) k3
      · exact fun hs x k1 k2 => hs x (by omega) (by omega)

/-- A chunk is mapped exactly when a byte of it was written (20 R56; log 10). -/
theorem chunkMapped_iff_written (m : Memory) (a : Nat) :
    chunkMapped m a = true ↔ ∃ y, (lookupByte m y).isSome = true ∧ sameChunk y a = true := by
  unfold chunkMapped
  rw [List.any_eq_true]
  constructor
  · rintro ⟨c, hc, h⟩
    exact ⟨c.1, (lookupByte_isSome_iff m c.1).mpr (List.mem_map_of_mem hc), h⟩
  · rintro ⟨y, hy, h⟩
    obtain ⟨c, hc, rfl⟩ := List.mem_map.mp ((lookupByte_isSome_iff m y).mp hy)
    exact ⟨c, hc, h⟩

/-- `memWrite`, once: what its success says. -/
theorem memWrite_ok (s t : State) (a n v : Nat) (h : memWrite s a n v = .ok t) :
    t = { s with mem := storeBytes s.mem a n v } ∧ (n = 0 ∨ a + n ≤ Config.addrSpace) := by
  unfold memWrite at h
  split at h
  · simp at h
  · next hr =>
    split at h
    · simp at h
    · simp only [Except.ok.injEq] at h
      exact ⟨h.symm, (rangeCheck_eq_none a n).mp hr⟩

theorem memWrite_wf (s t : State) (a n v : Nat) (h : memWrite s a n v = .ok t)
    (hw : Memory.wf s.mem = true) : Memory.wf t.mem = true := by
  obtain ⟨rfl, hn⟩ := memWrite_ok s t a n v h
  rcases hn with rfl | hn
  · exact hw
  · exact storeBytes_wf _ _ _ _ hn hw

theorem placeWord_wf (m : Memory) (a : Nat) (w : Word) (ha : a < Config.addrSpace)
    (h : Memory.wf m = true) : Memory.wf (placeWord m a w) = true :=
  storeBytes_wf _ _ _ _ (by omega) h

theorem word_lt_addrSpace (w : Word) : w.toNat < Config.addrSpace := w.isLt

theorem placeInstruction_wf (s : State) (w : Word) (h : Memory.wf s.mem = true) :
    Memory.wf (placeInstruction s w).mem = true :=
  placeWord_wf _ _ _ (word_lt_addrSpace _) (placeWord_wf _ _ _ (word_lt_addrSpace _) h)

theorem loadContent_wf (s : State) (a : Nat) (content : List Byte) (h : Memory.wf s.mem = true) :
    Memory.wf (loadContent s a content).mem = true := by
  induction content generalizing s a with
  | nil => exact h
  | cons b rest ih =>
    unfold loadContent
    split
    · simpa using h
    · next s' hs => exact ih _ _ (memWrite_wf _ _ _ _ _ hs h)

theorem loadSections_wf (s : State) (image : List Section) (h : Memory.wf s.mem = true) :
    Memory.wf (loadSections s image).mem = true := by
  induction image generalizing s with
  | nil => exact h
  | cons c rest ih =>
    unfold loadSections
    split
    · exact h
    · exact ih _ (loadContent_wf _ _ _ h)

/-- The reset sequence leaves memory in canonical form. -/
theorem boot_wf (p : Params) (n : Counter) (image : List Section) (t : State)
    (h : boot p n image = .next t) : Memory.wf t.mem = true := by
  unfold boot at h
  split at h
  · cases h
  · split at h
    · cases h
    · dsimp only at h
      split at h <;> (cases h; exact loadSections_wf _ _ rfl)

/-- Memory at reset is in canonical form. -/
theorem reset_mem_wf : Memory.wf State.reset.mem = true := rfl

/-- `memRead` depends on the memory and the parameters only. -/
theorem byteAt_congr {s t : State} (hm : t.mem = s.mem) (hp : t.params = s.params) (a : Nat) :
    t.byteAt a = s.byteAt a := by
  simp [State.byteAt, hm, hp]

theorem memRead_congr {s t : State} (hm : t.mem = s.mem) (hp : t.params = s.params) (c : Cause)
    (a n : Nat) : memRead t c a n = memRead s c a n := by
  induction n generalizing a with
  | zero => rfl
  | succ n ih => simp only [memRead, byteAt_congr hm hp, ih]

end Sys2Proof.Machine
end

