-- ==== Sys2Proof/Laws/Registers.lean ====
section
/-! SUPPORT. The register file: what each operation does to each slot (spec 10 R20 to R27). -/

set_option Elab.async false

namespace Sys2Proof.Machine

/-- Slot `i` through the vector's own access. -/
theorem slot_eq_getElem? (s : State) (i : Nat) :
    s.slot i = s.rf[i]?.getD { value := 0#32, written := true, pending := false } := by
  simp [State.slot, List.getD_eq_getElem?_getD]

/-- A number that is no slot reads as an empty slot. -/
theorem slot_of_ge (s : State) (i : Nat) (h : 34 ≤ i) :
    s.slot i = { value := 0#32, written := true, pending := false } := by
  rw [slot_eq_getElem?, Vector.getElem?_eq_none h]
  rfl

theorem slot_mk_rf (s : State) (i : Nat) (x : Slot) (j : Nat) :
    ({ s with rf := s.rf.setIfInBounds i x } : State).slot j =
      if i = j ∧ i < 34 then x else s.slot j := by
  simp only [slot_eq_getElem?, Vector.getElem?_setIfInBounds]
  by_cases h : i = j
  · subst h
    by_cases hi : i < 34
    · simp [hi]
    · simp [hi]
  · simp [h]

theorem slot_congr {s t : State} (h : t.rf = s.rf) (i : Nat) : t.slot i = s.slot i := by
  simp [State.slot, h]

theorem readSlot_congr {s t : State} (h : t.rf = s.rf) (i : Nat) : t.readSlot i = s.readSlot i := by
  simp [State.readSlot, slot_congr h]

theorem isWritten_congr {s t : State} (h : t.rf = s.rf) (i : Nat) :
    t.isWritten i = s.isWritten i := by
  simp [State.isWritten, slot_congr h]

theorem isPending_congr {s t : State} (h : t.rf = s.rf) (i : Nat) :
    t.isPending i = s.isPending i := by
  simp [State.isPending, slot_congr h]

theorem setSlot_slot (s : State) (i j : Nat) (v : Word) :
    (s.setSlot i v).slot j =
      if i = j ∧ i ≠ 0 ∧ i < 34 then { value := v, written := true, pending := false } else s.slot j := by
  unfold State.setSlot
  split
  · next h => simp [h]
  · next h => simp [slot_mk_rf, h]

theorem invalidate_slot (s : State) (i j : Nat) :
    (s.invalidate i).slot j =
      if i = j ∧ i ≠ 0 ∧ i < 34 then { s.slot i with pending := true } else s.slot j := by
  unfold State.invalidate
  split
  · next h => simp [h]
  · next h => simp [slot_mk_rf, h]

/-- A number that is no slot is never pending. -/
theorem isPending_of_ge (s : State) (i : Nat) (h : 34 ≤ i) : s.isPending i = false := by
  simp [State.isPending, slot_of_ge s i h]

theorem setSlot_isPending (s : State) (i j : Nat) (v : Word) :
    (s.setSlot i v).isPending j = if i = j then false else s.isPending j := by
  by_cases hj : j = 0
  · simp [State.isPending, hj]
  · by_cases hij : i = j
    · subst hij
      by_cases hi : i < 34
      · simp [State.isPending, setSlot_slot, hj, hi]
      · simpa using isPending_of_ge _ i (Nat.le_of_not_lt hi)
    · simp [State.isPending, setSlot_slot, hij]

theorem invalidate_isPending (s : State) (i j : Nat) :
    (s.invalidate i).isPending j = if i = j ∧ i ≠ 0 ∧ i < 34 then true else s.isPending j := by
  by_cases hj : j = 0
  · have h : ¬(i = j ∧ i ≠ 0 ∧ i < 34) := fun h => h.2.1 (h.1.trans hj)
    rw [if_neg h]
    simp [State.isPending, hj]
  · by_cases hij : i = j ∧ i ≠ 0 ∧ i < 34
    · obtain ⟨rfl, h0, h1⟩ := hij
      simp [State.isPending, invalidate_slot, h0, h1]
    · simp only [State.isPending, invalidate_slot, hij, if_false]

theorem invalidate_readSlot (s : State) (i j : Nat) : (s.invalidate i).readSlot j = s.readSlot j := by
  unfold State.readSlot
  rw [invalidate_slot]
  split
  · rfl
  · split
    · next h => obtain ⟨rfl, -, -⟩ := h; rfl
    · rfl

theorem invalidate_isWritten (s : State) (i j : Nat) :
    (s.invalidate i).isWritten j = s.isWritten j := by
  unfold State.isWritten
  rw [invalidate_slot]
  split
  · rfl
  · split
    · next h => obtain ⟨rfl, -, -⟩ := h; rfl
    · rfl

/-- The check of a write, once: it fails exactly on a slot other than 0 that is not pending (10 R25). -/
theorem writeCheck_eq_none (s : State) (i : Nat) :
    s.writeCheck i = none ↔ i = 0 ∨ s.isPending i = true := by
  unfold State.writeCheck
  split
  · next h => simp [h.1, h.2]
  · next h => simp only [true_iff]; by_contra hc; simp only [not_or, Bool.not_eq_true] at hc; exact h hc

theorem writeCheck_eq_some (s : State) (i : Nat) (stop : Stop) :
    s.writeCheck i = some stop ↔
      (i ≠ 0 ∧ s.isPending i = false) ∧ stop = ⟨.pendingWriteViolation, .slot i⟩ := by
  unfold State.writeCheck
  split
  · next h => simp [h, eq_comm]
  · next h => simp [h]

/-- The check of a source, once: it fails exactly on an unwritten slot (10 R27). -/
theorem sourceCheck_eq_none (s : State) (i : Nat) :
    s.sourceCheck i = none ↔ s.isWritten i = true := by
  unfold State.sourceCheck
  split <;> simp_all

end Sys2Proof.Machine
end

