-- ==== Sys2Proof/Laws/Exec.lean ====
section
/-! SUPPORT. What `exec` can do, said once: every meaning is one `perform` whose execute part only adds
computed fields to the record and whose memory part passes, loads or stores. The four stages of an
instruction follow (spec 40 R115, R116, R119, R120). -/

set_option Elab.async false

namespace Sys2Proof.Machine

/-- The execute part keeps the instruction it works on (10 R38). -/
def KeepsInstruction (compute : ExecutePart) : Prop :=
  ∀ r r', compute r = .ok r' → SameInstruction r r'

/-- The three memory parts there are (40 R120). -/
inductive AccessShape : MemoryPart → Prop where
  | pass : AccessShape passMemory
  | load (extend : Nat → Word) : AccessShape (loadMemory extend)
  | store : AccessShape storeMemory

theorem SameInstruction.refl (r : InstrRecord) : SameInstruction r r := ⟨rfl, rfl, rfl, rfl, rfl⟩

theorem SameInstruction.trans {a b c : InstrRecord} (h : SameInstruction a b)
    (k : SameInstruction b c) : SameInstruction a c := by
  obtain ⟨h1, h2, h3, h4, h5⟩ := h
  obtain ⟨k1, k2, k3, k4, k5⟩ := k
  exact ⟨k1.trans h1, k2.trans h2, k3.trans h3, k4.trans h4, k5.trans h5⟩

theorem setResult_keeps (f : InstrRecord → Word) : KeepsInstruction (setResult f) := by
  rintro r r' h; cases h; exact ⟨rfl, rfl, rfl, rfl, rfl⟩

theorem setChecked_keeps (m : OverflowMode) (n : String) (f : InstrRecord → Int) :
    KeepsInstruction (setChecked m n f) := by
  intro r r' h
  unfold setChecked at h
  split at h
  · cases h
  · cases h; exact ⟨rfl, rfl, rfl, rfl, rfl⟩

theorem setProduct_keeps (p : InstrRecord → BitVec 64) : KeepsInstruction (setProduct p) := by
  rintro r r' h; cases h; exact ⟨rfl, rfl, rfl, rfl, rfl⟩

theorem divideSigned_keeps (n : String) : KeepsInstruction (divideSigned n) := by
  intro r r' h
  unfold divideSigned at h
  dsimp only at h
  split at h
  · cases h
  · split at h
    · cases h
    · cases h; exact ⟨rfl, rfl, rfl, rfl, rfl⟩

theorem divideUnsigned_keeps (n : String) : KeepsInstruction (divideUnsigned n) := by
  intro r r' h
  unfold divideUnsigned at h
  split at h
  · cases h
  · cases h; exact ⟨rfl, rfl, rfl, rfl, rfl⟩

theorem moveValue_keeps : KeepsInstruction moveValue := by
  rintro r r' h; cases h; exact ⟨rfl, rfl, rfl, rfl, rfl⟩

theorem branchIf_keeps (c : InstrRecord → Bool) (imm : Half) : KeepsInstruction (branchIf c imm) := by
  rintro r r' h; cases h; exact ⟨rfl, rfl, rfl, rfl, rfl⟩

theorem jumpTo_keeps (f : InstrRecord → Word) : KeepsInstruction (jumpTo f) := by
  rintro r r' h; cases h; exact ⟨rfl, rfl, rfl, rfl, rfl⟩

theorem jumpAndLink_keeps (l : Word) (f : InstrRecord → Word) : KeepsInstruction (jumpAndLink l f) := by
  rintro r r' h; cases h; exact ⟨rfl, rfl, rfl, rfl, rfl⟩

theorem setAddress_keeps (imm : Half) (n : Nat) : KeepsInstruction (setAddress imm n) := by
  rintro r r' h; cases h; exact ⟨rfl, rfl, rfl, rfl, rfl⟩

theorem systemStop_keeps (m : SysMode) (n : String) : KeepsInstruction (systemStop m n) := by
  intro r r' h
  cases m
  · cases h
  · cases h; exact .refl r

/-- What `exec` can do: one `perform` of the instruction, with an execute part that keeps it and one of
the three memory parts. -/
theorem exec_eq_perform (i : Instr) (s : State) :
    ∃ compute access, exec i s = perform i compute access s ∧ KeepsInstruction compute ∧
      AccessShape access := by
  cases i <;>
    first
    | exact ⟨_, _, rfl, setResult_keeps _, .pass⟩
    | exact ⟨_, _, rfl, setChecked_keeps _ _ _, .pass⟩
    | exact ⟨_, _, rfl, setProduct_keeps _, .pass⟩
    | exact ⟨_, _, rfl, divideSigned_keeps _, .pass⟩
    | exact ⟨_, _, rfl, divideUnsigned_keeps _, .pass⟩
    | exact ⟨_, _, rfl, moveValue_keeps, .pass⟩
    | exact ⟨_, _, rfl, branchIf_keeps _ _, .pass⟩
    | exact ⟨_, _, rfl, jumpTo_keeps _, .pass⟩
    | exact ⟨_, _, rfl, jumpAndLink_keeps _ _, .pass⟩
    | exact ⟨_, _, rfl, setAddress_keeps _ _, .load _⟩
    | exact ⟨_, _, rfl, setAddress_keeps _ _, .store⟩
    | exact ⟨_, _, rfl, systemStop_keeps _ _, .pass⟩

/-- `exec` in the writeback stage (40 R115). -/
theorem exec_writeback (i : Instr) (s : State) (r : InstrRecord) (h : AtWriteback s r) :
    exec i s = .next (writebackPart i r s) := by
  obtain ⟨c, a, he, -, -⟩ := exec_eq_perform i s
  simp [he, perform, h.1, h.2]

/-- `exec` in the decode stage (40 R116). -/
theorem exec_decode (i : Instr) (s : State) (f : Fetched) (h : AtDecode s f) :
    exec i s = .next (decodePart i f s) := by
  obtain ⟨c, a, he, -, -⟩ := exec_eq_perform i s
  simp [he, perform, h.1, h.2]

/-- `exec` in the execute stage (40 R119): a Fatal, or the record moves on with its computed fields. -/
theorem exec_execute (i : Instr) (s : State) (r : InstrRecord) (h : AtExecute s r) :
    (∃ stop, exec i s = .next (s.raise stop)) ∨
      (∃ r', exec i s = .next (toMemory r' s) ∧ SameInstruction r r') := by
  obtain ⟨c, a, he, hk, -⟩ := exec_eq_perform i s
  rw [he]
  simp only [perform, h.1, h.2, executePart]
  cases hc : c r with
  | error stop => exact .inl ⟨stop, rfl⟩
  | ok r' => exact .inr ⟨r', rfl, hk r r' hc⟩

/-- What a memory part can do: a Fatal, or the record moves on and, for a store, memory is written. -/
theorem memoryPart_cases (access : MemoryPart) (ha : AccessShape access) (r : InstrRecord) (s : State) :
    (∃ stop, memoryPart access r s = s.raise stop) ∨
      (∃ s' r', memoryPart access r s = toWriteback r' s' ∧ SameInstruction r r' ∧
        (s' = s ∨ memWrite s r.addr.toNat r.width r.v2.toNat = .ok s')) := by
  unfold memoryPart
  cases ha with
  | pass => exact .inr ⟨s, r, rfl, .refl r, .inl rfl⟩
  | load extend =>
    simp only [loadMemory]
    cases memRead s .unmappedLoad r.addr.toNat r.width with
    | error stop => exact .inl ⟨stop, rfl⟩
    | ok v => exact .inr ⟨s, _, rfl, ⟨rfl, rfl, rfl, rfl, rfl⟩, .inl rfl⟩
  | store =>
    simp only [storeMemory]
    cases hw : memWrite s r.addr.toNat r.width r.v2.toNat with
    | error stop => exact .inl ⟨stop, rfl⟩
    | ok s' => exact .inr ⟨s', r, rfl, .refl r, .inr rfl⟩

/-- `exec` in the memory stage (40 R120). -/
theorem exec_memory (i : Instr) (s : State) (r : InstrRecord) (h : AtMemory s r) :
    (∃ stop, exec i s = .next (s.raise stop)) ∨
      (∃ s' r', exec i s = .next (toWriteback r' s') ∧ SameInstruction r r' ∧
        (s' = s ∨ memWrite s r.addr.toNat r.width r.v2.toNat = .ok s')) := by
  obtain ⟨c, a, he, -, ha⟩ := exec_eq_perform i s
  have hp : exec i s = .next (memoryPart a r s) := by simp [he, perform, h.1, h.2]
  rw [hp]
  rcases memoryPart_cases a ha r s with ⟨stop, hm⟩ | ⟨s', r', hm, hs, hw⟩
  · exact .inl ⟨stop, by rw [hm]⟩
  · exact .inr ⟨s', r', by rw [hm], hs, hw⟩

/-- The decode stage's work, once: a stall, a Fatal, or the issue (40 R116 steps 4 to 7). -/
theorem decodePart_cases (i : Instr) (f : Fetched) (s : State) :
    (hazard i s = true ∧ decodePart i f s = holdBack f s) ∨
      (hazard i s = false ∧ ∃ stop, decodePart i f s = s.raise stop) ∨
      (hazard i s = false ∧ s.isWritten i.src1 = true ∧ s.isWritten i.src2 = true ∧
        decodePart i f s = issue i f s) := by
  unfold decodePart
  cases hh : hazard i s with
  | true => exact .inl ⟨rfl, rfl⟩
  | false =>
    refine .inr ?_
    simp only [Bool.false_eq_true, if_false]
    cases h1 : s.sourceCheck i.src1 with
    | some stop => exact .inl ⟨trivial, stop, rfl⟩
    | none =>
      cases h2 : s.sourceCheck i.src2 with
      | some stop => exact .inl ⟨trivial, stop, rfl⟩
      | none => exact .inr ⟨trivial, (sourceCheck_eq_none _ _).mp h1, (sourceCheck_eq_none _ _).mp h2, rfl⟩

/-- The writeback stage's work, once: a Fatal, or the retirement (40 R115). -/
theorem writebackPart_cases (i : Instr) (r : InstrRecord) (s : State) :
    (∃ stop, writebackPart i r s = s.raise stop) ∨
      ((i.dst = 0 ∨ s.isPending i.dst = true) ∧ (i.dst2 = 0 ∨ s.isPending i.dst2 = true) ∧
        writebackPart i r s = retire i r s) := by
  unfold writebackPart
  cases h1 : s.writeCheck i.dst with
  | some stop => exact .inl ⟨stop, rfl⟩
  | none =>
    cases h2 : s.writeCheck i.dst2 with
    | some stop => exact .inl ⟨stop, rfl⟩
    | none => exact .inr ⟨(writeCheck_eq_none _ _).mp h1, (writeCheck_eq_none _ _).mp h2, rfl⟩

end Sys2Proof.Machine
end

