-- ==== Sys2Proof/Laws/Cycle.lean ====
section
/-! SUPPORT. What each stage handler and a whole cycle can do, said once (spec 40 R110 to R120, R130). -/

set_option Elab.async false

namespace Sys2Proof.Machine

/-- The next handler runs exactly when the cycle has not stopped (40 R130). -/
theorem chain_next (o : Result) (k : State → Result) (t : State) :
    chain o k = .next t ↔
      (o = .next t ∧ t.fatal.isSome = true) ∨ (∃ u, o = .next u ∧ u.fatal = none ∧ k u = .next t) := by
  cases o with
  | next u =>
    cases hf : u.fatal with
    | none =>
      simp only [chain, hf, Option.isSome_none, Bool.false_eq_true, if_false, Host.Outcome.next.injEq]
      constructor
      · exact fun h => .inr ⟨u, rfl, hf, h⟩
      · rintro (⟨rfl, h⟩ | ⟨v, rfl, -, h⟩)
        · simp [hf] at h
        · exact h
    | some e =>
      simp only [chain, hf, Option.isSome_some, if_true, Host.Outcome.next.injEq]
      constructor
      · rintro rfl; exact .inl ⟨rfl, by simp [hf]⟩
      · rintro (⟨rfl, -⟩ | ⟨v, rfl, h, -⟩)
        · rfl
        · simp [hf] at h
  | fault e => simp [chain]
  | refused e => simp [chain]

/-- The writeback handler (40 R115). -/
theorem writebackStage_eq (s : State) :
    writebackStage s = .next
      (match s.m2w.out with
      | some r => writebackPart r.op r { s with stage := .writeback }
      | none => State.bubble { s with stage := .writeback }) := by
  unfold writebackStage Port.read
  dsimp only
  cases h : s.m2w.out with
  | none => rfl
  | some r => exact exec_writeback r.op _ r ⟨rfl, h⟩

/-- The decode handler (40 R116), when nothing downstream stalls it (40 R122). -/
theorem decodeStage_eq (s : State) (h : s.e2d.readStall s.params.stallLatency ≠ some true) :
    decodeStage s = .next
      (match s.decodeInput with
      | none => State.bubble { s with stage := .decode }
      | some f =>
        match decodeWord f.word with
        | .error _ => State.raise { s with stage := .decode } ⟨.decodeFailure, .word f.word f.pc⟩
        | .ok i => decodePart i f { s with stage := .decode }) := by
  unfold decodeStage
  dsimp only
  rw [if_neg h]
  have hi : State.decodeInput { s with stage := .decode } = s.decodeInput := rfl
  rw [hi]
  cases hd : s.decodeInput with
  | none => rfl
  | some f =>
    dsimp only
    cases decodeWord f.word with
    | error e => rfl
    | ok i => exact exec_decode i _ f ⟨rfl, hi.trans hd⟩

/-- The fetch handler, once (40 R118): nothing, a Fatal of the fetch, or a word for F2D. -/
theorem fetchStage_cases (s : State) :
    ((s.d2f.readStall s.params.stallLatency = some true ∨ s.pcValid = false) ∧
        fetchStage s = .next (State.bubble { s with stage := .fetch })) ∨
      (∃ stop, fetchStage s = .next (State.raise { s with stage := .fetch } stop)) ∨
      (s.pcValid = true ∧ ∃ v, memRead s .unmappedFetch s.pc.toNat 4 = .ok v ∧
        fetchStage s = .next
          { s with
            stage := .fetch
            f2d := s.f2d.write ⟨BitVec.ofNat 32 v, s.pc⟩
            trace := { s.trace with fetch := some ⟨BitVec.ofNat 32 v, s.pc⟩ } }) := by
  unfold fetchStage
  dsimp only
  by_cases h : s.d2f.readStall s.params.stallLatency = some true ∨ s.pcValid = false
  · exact .inl ⟨h, by rw [if_pos h]⟩
  · rw [if_neg h]
    have hm : memRead { s with stage := .fetch } .unmappedFetch s.pc.toNat Config.instrBytes =
        memRead s .unmappedFetch s.pc.toNat 4 := memRead_congr rfl rfl _ _ _
    rw [hm]
    cases hr : memRead s .unmappedFetch s.pc.toNat 4 with
    | error stop => exact .inr (.inl ⟨stop, rfl⟩)
    | ok v =>
      refine .inr (.inr ⟨?_, v, rfl, rfl⟩)
      simp only [not_or, Bool.not_eq_false] at h
      exact h.2

/-- The execute handler, once (40 R119), when nothing downstream stalls it (40 R122). -/
theorem executeStage_cases (s : State) (h : s.m2e.readStall s.params.stallLatency ≠ some true) :
    (s.d2e.out = none ∧ executeStage s = .next (State.bubble { s with stage := .execute })) ∨
      (∃ r, s.d2e.out = some r ∧
        executeStage s = exec r.op { s with stage := .execute } ∧
        ((∃ stop, executeStage s = .next (State.raise { s with stage := .execute } stop)) ∨
          ∃ r', executeStage s = .next (toMemory r' { s with stage := .execute }) ∧
            SameInstruction r r')) := by
  unfold executeStage Port.read
  dsimp only
  rw [if_neg h]
  cases hd : s.d2e.out with
  | none => exact .inl ⟨rfl, rfl⟩
  | some r => exact .inr ⟨r, rfl, rfl, exec_execute r.op _ r ⟨rfl, hd⟩⟩

/-- The memory handler, once (40 R120), when nothing downstream stalls it (40 R122). -/
theorem memoryStage_cases (s : State) (h : s.w2m.readStall s.params.stallLatency ≠ some true) :
    (s.e2m.out = none ∧ memoryStage s = .next (State.bubble { s with stage := .memory })) ∨
      (∃ r, s.e2m.out = some r ∧
        memoryStage s = exec r.op { s with stage := .memory } ∧
        ((∃ stop, memoryStage s = .next (State.raise { s with stage := .memory } stop)) ∨
          ∃ s' r', memoryStage s = .next (toWriteback r' s') ∧ SameInstruction r r' ∧
            (s' = { s with stage := .memory } ∨
              memWrite { s with stage := .memory } r.addr.toNat r.width r.v2.toNat = .ok s'))) := by
  unfold memoryStage Port.read
  dsimp only
  rw [if_neg h]
  cases hd : s.e2m.out with
  | none => exact .inl ⟨rfl, rfl⟩
  | some r => exact .inr ⟨r, rfl, rfl, exec_memory r.op _ r ⟨rfl, hd⟩⟩

/-- A cycle that raises no Fatal runs its five handlers and ends (40 R110). -/
theorem runCycle_safe (s t : State) (h : runCycle s = .next t) (ht : t.fatal = none) :
    ∃ a b c d e,
      writebackStage (startCycle s) = .next a ∧ a.fatal = none ∧
      decodeStage a = .next b ∧ b.fatal = none ∧
      fetchStage b = .next c ∧ c.fatal = none ∧
      executeStage c = .next d ∧ d.fatal = none ∧
      memoryStage d = .next e ∧ e.fatal = none ∧ t = endCycle e := by
  unfold runCycle at h
  have hns : ¬ t.fatal.isSome = true := by simp [ht]
  rcases (chain_next _ _ _).mp h with ⟨-, hf⟩ | ⟨a, ha, ha', h⟩
  · exact absurd hf hns
  rcases (chain_next _ _ _).mp h with ⟨-, hf⟩ | ⟨b, hb, hb', h⟩
  · exact absurd hf hns
  rcases (chain_next _ _ _).mp h with ⟨-, hf⟩ | ⟨c, hc, hc', h⟩
  · exact absurd hf hns
  rcases (chain_next _ _ _).mp h with ⟨-, hf⟩ | ⟨d, hd, hd', h⟩
  · exact absurd hf hns
  rcases (chain_next _ _ _).mp h with ⟨-, hf⟩ | ⟨e, he, he', h⟩
  · exact absurd hf hns
  cases h
  exact ⟨a, b, c, d, e, ha, ha', hb, hb', hc, hc', hd, hd', he, he', rfl⟩

/-- A step is a cycle while the run has not ended (40 R125). -/
theorem step_running (s : State) (h : s.isRunning = true) : step s = runCycle s := by
  simp [step, h]

end Sys2Proof.Machine
end

