-- ==== Sys2Proof/Laws/Operands.lean ====
section
/-! SUPPORT. The shared operand and comparison functions, once: what each answers (spec 00 R9, 41 R191 to
R196, 43 R220, 44 R248). -/

set_option Elab.async false

namespace Sys2Proof.Machine

/-- Sign extension keeps the signed value (00 R9). -/
theorem sext16_toInt (v : Half) : (sext16 v).toInt = v.toInt :=
  BitVec.toInt_signExtend_of_le (by decide)

/-- Sign extension of a byte keeps the signed value (00 R9). -/
theorem sext8_toInt (v : Byte) : (sext8 v).toInt = v.toInt :=
  BitVec.toInt_signExtend_of_le (by decide)

/-- Zero extension keeps the unsigned value (00 R9). -/
theorem zext16_toNat (v : Half) : (zext16 v).toNat = v.toNat := by
  have := v.isLt
  simp only [zext16, BitVec.toNat_setWidth]
  omega

/-- Zero extension of a byte keeps the unsigned value (00 R9). -/
theorem zext8_toNat (v : Byte) : (zext8 v).toNat = v.toNat := by
  have := v.isLt
  simp only [zext8, BitVec.toNat_setWidth]
  omega

/-- A comparison's result as an if on the proposition it decides (41 R196). -/
theorem boolWord_decide (p : Prop) [Decidable p] : boolWord (decide p) = if p then 1#32 else 0#32 := by
  unfold boolWord
  by_cases h : p <;> simp [h]

/-- The overflow check in one line: a Fatal exactly outside the signed range under OVERFLOW_MODE = fatal,
with the pc and the mnemonic; else the value modulo 2^32 (41 R170, R172, R174, 60 R271). -/
theorem overflowChecked_eq (mode : OverflowMode) (pc : Word) (name : String) (t : Int) :
    overflowChecked mode pc name t =
      if ¬ (-2 ^ 31 ≤ t ∧ t < 2 ^ 31) ∧ mode = .fatal then
        .error ⟨.arithmeticOverflow, .instr pc name⟩
      else .ok (BitVec.ofInt 32 t) := by
  unfold overflowChecked
  by_cases h : ¬ (-2 ^ 31 ≤ t ∧ t < 2 ^ 31) ∧ mode = .fatal
  · rw [if_pos h, if_pos ⟨decide_eq_false h.1, h.2⟩]
  · rw [if_neg h, if_neg fun k => h ⟨of_decide_eq_false k.1, k.2⟩]

end Sys2Proof.Machine
end

