-- ==== Sys2Proof/Laws/PerInstr.lean ====
section
/-! SUPPORT. The per-instruction family SlotBounds: the operands of a well-formed instruction are slots of
the register file, and only multiply and divide have a second destination (spec 10 R26, R38, 30 R88). -/

-- Fewer threads: this file has many one-line proofs.
set_option Elab.async false

namespace Sys2Proof.Laws

/-- The operands of a well-formed instruction are slots of the register file, and its second destination
is HI or unused. -/
def SlotBounds.Statement (i : Instr) : Prop :=
  i.wellFormed = true →
    i.src1 < Config.slotCount ∧ i.src2 < Config.slotCount ∧ i.dst < Config.slotCount ∧
      (i.dst2 = 0 ∨ i.dst2 = Config.hi)

/-- An operand is one of the instruction's registers, unused, the link register, HI or LO. -/
def OperandOf (i : Instr) (x : Nat) : Prop :=
  x ∈ i.regNums ∨ x ∈ [0, Config.linkReg, Config.hi, Config.lo]

theorem operandOf_lt (i : Instr) (x : Nat) (hx : OperandOf i x) (h : i.wellFormed = true) :
    x < Config.slotCount := by
  rcases hx with hx | hx
  · have := of_decide_eq_true (List.all_eq_true.mp h x hx)
    simp only [Config.generalRegs] at this
    simp only [Config.slotCount]
    omega
  · have : ∀ y ∈ [0, Config.linkReg, Config.hi, Config.lo], y < Config.slotCount := by decide
    exact this x hx

theorem slotBounds_of (i : Instr) (h1 : OperandOf i i.src1) (h2 : OperandOf i i.src2)
    (h3 : OperandOf i i.dst) (h4 : i.dst2 = 0 ∨ i.dst2 = Config.hi) : SlotBounds.Statement i :=
  fun h => ⟨operandOf_lt i _ h1 h, operandOf_lt i _ h2 h, operandOf_lt i _ h3 h, h4⟩

theorem SlotBounds.sll (rd rt : Nat) (shamt : BitVec 5) : SlotBounds.Statement (.sll rd rt shamt) :=
  slotBounds_of _ (.inl (by simp [Instr.src1, Instr.row, Instr.regNums]))
    (.inr (by simp [Instr.src2, Instr.row]))
    (.inl (by simp [Instr.dst, Instr.row, Instr.regNums])) (.inl rfl)

theorem SlotBounds.srl (rd rt : Nat) (shamt : BitVec 5) : SlotBounds.Statement (.srl rd rt shamt) :=
  slotBounds_of _ (.inl (by simp [Instr.src1, Instr.row, Instr.regNums]))
    (.inr (by simp [Instr.src2, Instr.row]))
    (.inl (by simp [Instr.dst, Instr.row, Instr.regNums])) (.inl rfl)

theorem SlotBounds.sra (rd rt : Nat) (shamt : BitVec 5) : SlotBounds.Statement (.sra rd rt shamt) :=
  slotBounds_of _ (.inl (by simp [Instr.src1, Instr.row, Instr.regNums]))
    (.inr (by simp [Instr.src2, Instr.row]))
    (.inl (by simp [Instr.dst, Instr.row, Instr.regNums])) (.inl rfl)

theorem SlotBounds.sllv (rd rt rs : Nat) : SlotBounds.Statement (.sllv rd rt rs) :=
  slotBounds_of _ (.inl (by simp [Instr.src1, Instr.row, Instr.regNums]))
    (.inl (by simp [Instr.src2, Instr.row, Instr.regNums]))
    (.inl (by simp [Instr.dst, Instr.row, Instr.regNums])) (.inl rfl)

theorem SlotBounds.srlv (rd rt rs : Nat) : SlotBounds.Statement (.srlv rd rt rs) :=
  slotBounds_of _ (.inl (by simp [Instr.src1, Instr.row, Instr.regNums]))
    (.inl (by simp [Instr.src2, Instr.row, Instr.regNums]))
    (.inl (by simp [Instr.dst, Instr.row, Instr.regNums])) (.inl rfl)

theorem SlotBounds.srav (rd rt rs : Nat) : SlotBounds.Statement (.srav rd rt rs) :=
  slotBounds_of _ (.inl (by simp [Instr.src1, Instr.row, Instr.regNums]))
    (.inl (by simp [Instr.src2, Instr.row, Instr.regNums]))
    (.inl (by simp [Instr.dst, Instr.row, Instr.regNums])) (.inl rfl)

theorem SlotBounds.jr (rs : Nat) : SlotBounds.Statement (.jr rs) :=
  slotBounds_of _ (.inl (by simp [Instr.src1, Instr.row, Instr.regNums]))
    (.inr (by simp [Instr.src2, Instr.row]))
    (.inr (by simp [Instr.dst, Instr.row])) (.inl rfl)

theorem SlotBounds.jalr (rd rs : Nat) : SlotBounds.Statement (.jalr rd rs) :=
  slotBounds_of _ (.inl (by simp [Instr.src1, Instr.row, Instr.regNums]))
    (.inr (by simp [Instr.src2, Instr.row]))
    (.inl (by simp [Instr.dst, Instr.row, Instr.regNums])) (.inl rfl)

theorem SlotBounds.syscall : SlotBounds.Statement (.syscall) :=
  slotBounds_of _ (.inr (by simp [Instr.src1, Instr.row]))
    (.inr (by simp [Instr.src2, Instr.row]))
    (.inr (by simp [Instr.dst, Instr.row])) (.inl rfl)

theorem SlotBounds.brk : SlotBounds.Statement (.brk) :=
  slotBounds_of _ (.inr (by simp [Instr.src1, Instr.row]))
    (.inr (by simp [Instr.src2, Instr.row]))
    (.inr (by simp [Instr.dst, Instr.row])) (.inl rfl)

theorem SlotBounds.mfhi (rd : Nat) : SlotBounds.Statement (.mfhi rd) :=
  slotBounds_of _ (.inr (by simp [Instr.src1, Instr.row]))
    (.inr (by simp [Instr.src2, Instr.row]))
    (.inl (by simp [Instr.dst, Instr.row, Instr.regNums])) (.inl rfl)

theorem SlotBounds.mthi (rs : Nat) : SlotBounds.Statement (.mthi rs) :=
  slotBounds_of _ (.inl (by simp [Instr.src1, Instr.row, Instr.regNums]))
    (.inr (by simp [Instr.src2, Instr.row]))
    (.inr (by simp [Instr.dst, Instr.row])) (.inl rfl)

theorem SlotBounds.mflo (rd : Nat) : SlotBounds.Statement (.mflo rd) :=
  slotBounds_of _ (.inr (by simp [Instr.src1, Instr.row]))
    (.inr (by simp [Instr.src2, Instr.row]))
    (.inl (by simp [Instr.dst, Instr.row, Instr.regNums])) (.inl rfl)

theorem SlotBounds.mtlo (rs : Nat) : SlotBounds.Statement (.mtlo rs) :=
  slotBounds_of _ (.inl (by simp [Instr.src1, Instr.row, Instr.regNums]))
    (.inr (by simp [Instr.src2, Instr.row]))
    (.inr (by simp [Instr.dst, Instr.row])) (.inl rfl)

theorem SlotBounds.mult (rs rt : Nat) : SlotBounds.Statement (.mult rs rt) :=
  slotBounds_of _ (.inl (by simp [Instr.src1, Instr.row, Instr.regNums]))
    (.inl (by simp [Instr.src2, Instr.row, Instr.regNums]))
    (.inr (by simp [Instr.dst, Instr.row])) (.inr rfl)

theorem SlotBounds.multu (rs rt : Nat) : SlotBounds.Statement (.multu rs rt) :=
  slotBounds_of _ (.inl (by simp [Instr.src1, Instr.row, Instr.regNums]))
    (.inl (by simp [Instr.src2, Instr.row, Instr.regNums]))
    (.inr (by simp [Instr.dst, Instr.row])) (.inr rfl)

theorem SlotBounds.div (rs rt : Nat) : SlotBounds.Statement (.div rs rt) :=
  slotBounds_of _ (.inl (by simp [Instr.src1, Instr.row, Instr.regNums]))
    (.inl (by simp [Instr.src2, Instr.row, Instr.regNums]))
    (.inr (by simp [Instr.dst, Instr.row])) (.inr rfl)

theorem SlotBounds.divu (rs rt : Nat) : SlotBounds.Statement (.divu rs rt) :=
  slotBounds_of _ (.inl (by simp [Instr.src1, Instr.row, Instr.regNums]))
    (.inl (by simp [Instr.src2, Instr.row, Instr.regNums]))
    (.inr (by simp [Instr.dst, Instr.row])) (.inr rfl)

theorem SlotBounds.add (rd rs rt : Nat) : SlotBounds.Statement (.add rd rs rt) :=
  slotBounds_of _ (.inl (by simp [Instr.src1, Instr.row, Instr.regNums]))
    (.inl (by simp [Instr.src2, Instr.row, Instr.regNums]))
    (.inl (by simp [Instr.dst, Instr.row, Instr.regNums])) (.inl rfl)

theorem SlotBounds.addu (rd rs rt : Nat) : SlotBounds.Statement (.addu rd rs rt) :=
  slotBounds_of _ (.inl (by simp [Instr.src1, Instr.row, Instr.regNums]))
    (.inl (by simp [Instr.src2, Instr.row, Instr.regNums]))
    (.inl (by simp [Instr.dst, Instr.row, Instr.regNums])) (.inl rfl)

theorem SlotBounds.sub (rd rs rt : Nat) : SlotBounds.Statement (.sub rd rs rt) :=
  slotBounds_of _ (.inl (by simp [Instr.src1, Instr.row, Instr.regNums]))
    (.inl (by simp [Instr.src2, Instr.row, Instr.regNums]))
    (.inl (by simp [Instr.dst, Instr.row, Instr.regNums])) (.inl rfl)

theorem SlotBounds.subu (rd rs rt : Nat) : SlotBounds.Statement (.subu rd rs rt) :=
  slotBounds_of _ (.inl (by simp [Instr.src1, Instr.row, Instr.regNums]))
    (.inl (by simp [Instr.src2, Instr.row, Instr.regNums]))
    (.inl (by simp [Instr.dst, Instr.row, Instr.regNums])) (.inl rfl)

theorem SlotBounds.and (rd rs rt : Nat) : SlotBounds.Statement (.and rd rs rt) :=
  slotBounds_of _ (.inl (by simp [Instr.src1, Instr.row, Instr.regNums]))
    (.inl (by simp [Instr.src2, Instr.row, Instr.regNums]))
    (.inl (by simp [Instr.dst, Instr.row, Instr.regNums])) (.inl rfl)

theorem SlotBounds.or (rd rs rt : Nat) : SlotBounds.Statement (.or rd rs rt) :=
  slotBounds_of _ (.inl (by simp [Instr.src1, Instr.row, Instr.regNums]))
    (.inl (by simp [Instr.src2, Instr.row, Instr.regNums]))
    (.inl (by simp [Instr.dst, Instr.row, Instr.regNums])) (.inl rfl)

theorem SlotBounds.xor (rd rs rt : Nat) : SlotBounds.Statement (.xor rd rs rt) :=
  slotBounds_of _ (.inl (by simp [Instr.src1, Instr.row, Instr.regNums]))
    (.inl (by simp [Instr.src2, Instr.row, Instr.regNums]))
    (.inl (by simp [Instr.dst, Instr.row, Instr.regNums])) (.inl rfl)

theorem SlotBounds.nor (rd rs rt : Nat) : SlotBounds.Statement (.nor rd rs rt) :=
  slotBounds_of _ (.inl (by simp [Instr.src1, Instr.row, Instr.regNums]))
    (.inl (by simp [Instr.src2, Instr.row, Instr.regNums]))
    (.inl (by simp [Instr.dst, Instr.row, Instr.regNums])) (.inl rfl)

theorem SlotBounds.slt (rd rs rt : Nat) : SlotBounds.Statement (.slt rd rs rt) :=
  slotBounds_of _ (.inl (by simp [Instr.src1, Instr.row, Instr.regNums]))
    (.inl (by simp [Instr.src2, Instr.row, Instr.regNums]))
    (.inl (by simp [Instr.dst, Instr.row, Instr.regNums])) (.inl rfl)

theorem SlotBounds.sltu (rd rs rt : Nat) : SlotBounds.Statement (.sltu rd rs rt) :=
  slotBounds_of _ (.inl (by simp [Instr.src1, Instr.row, Instr.regNums]))
    (.inl (by simp [Instr.src2, Instr.row, Instr.regNums]))
    (.inl (by simp [Instr.dst, Instr.row, Instr.regNums])) (.inl rfl)

theorem SlotBounds.beq (rs rt : Nat) (imm : Half) : SlotBounds.Statement (.beq rs rt imm) :=
  slotBounds_of _ (.inl (by simp [Instr.src1, Instr.row, Instr.regNums]))
    (.inl (by simp [Instr.src2, Instr.row, Instr.regNums]))
    (.inr (by simp [Instr.dst, Instr.row])) (.inl rfl)

theorem SlotBounds.bne (rs rt : Nat) (imm : Half) : SlotBounds.Statement (.bne rs rt imm) :=
  slotBounds_of _ (.inl (by simp [Instr.src1, Instr.row, Instr.regNums]))
    (.inl (by simp [Instr.src2, Instr.row, Instr.regNums]))
    (.inr (by simp [Instr.dst, Instr.row])) (.inl rfl)

theorem SlotBounds.blez (rs : Nat) (imm : Half) : SlotBounds.Statement (.blez rs imm) :=
  slotBounds_of _ (.inl (by simp [Instr.src1, Instr.row, Instr.regNums]))
    (.inr (by simp [Instr.src2, Instr.row]))
    (.inr (by simp [Instr.dst, Instr.row])) (.inl rfl)

theorem SlotBounds.bgtz (rs : Nat) (imm : Half) : SlotBounds.Statement (.bgtz rs imm) :=
  slotBounds_of _ (.inl (by simp [Instr.src1, Instr.row, Instr.regNums]))
    (.inr (by simp [Instr.src2, Instr.row]))
    (.inr (by simp [Instr.dst, Instr.row])) (.inl rfl)

theorem SlotBounds.addi (rt rs : Nat) (imm : Half) : SlotBounds.Statement (.addi rt rs imm) :=
  slotBounds_of _ (.inl (by simp [Instr.src1, Instr.row, Instr.regNums]))
    (.inr (by simp [Instr.src2, Instr.row]))
    (.inl (by simp [Instr.dst, Instr.row, Instr.regNums])) (.inl rfl)

theorem SlotBounds.addiu (rt rs : Nat) (imm : Half) : SlotBounds.Statement (.addiu rt rs imm) :=
  slotBounds_of _ (.inl (by simp [Instr.src1, Instr.row, Instr.regNums]))
    (.inr (by simp [Instr.src2, Instr.row]))
    (.inl (by simp [Instr.dst, Instr.row, Instr.regNums])) (.inl rfl)

theorem SlotBounds.slti (rt rs : Nat) (imm : Half) : SlotBounds.Statement (.slti rt rs imm) :=
  slotBounds_of _ (.inl (by simp [Instr.src1, Instr.row, Instr.regNums]))
    (.inr (by simp [Instr.src2, Instr.row]))
    (.inl (by simp [Instr.dst, Instr.row, Instr.regNums])) (.inl rfl)

theorem SlotBounds.sltiu (rt rs : Nat) (imm : Half) : SlotBounds.Statement (.sltiu rt rs imm) :=
  slotBounds_of _ (.inl (by simp [Instr.src1, Instr.row, Instr.regNums]))
    (.inr (by simp [Instr.src2, Instr.row]))
    (.inl (by simp [Instr.dst, Instr.row, Instr.regNums])) (.inl rfl)

theorem SlotBounds.andi (rt rs : Nat) (imm : Half) : SlotBounds.Statement (.andi rt rs imm) :=
  slotBounds_of _ (.inl (by simp [Instr.src1, Instr.row, Instr.regNums]))
    (.inr (by simp [Instr.src2, Instr.row]))
    (.inl (by simp [Instr.dst, Instr.row, Instr.regNums])) (.inl rfl)

theorem SlotBounds.ori (rt rs : Nat) (imm : Half) : SlotBounds.Statement (.ori rt rs imm) :=
  slotBounds_of _ (.inl (by simp [Instr.src1, Instr.row, Instr.regNums]))
    (.inr (by simp [Instr.src2, Instr.row]))
    (.inl (by simp [Instr.dst, Instr.row, Instr.regNums])) (.inl rfl)

theorem SlotBounds.xori (rt rs : Nat) (imm : Half) : SlotBounds.Statement (.xori rt rs imm) :=
  slotBounds_of _ (.inl (by simp [Instr.src1, Instr.row, Instr.regNums]))
    (.inr (by simp [Instr.src2, Instr.row]))
    (.inl (by simp [Instr.dst, Instr.row, Instr.regNums])) (.inl rfl)

theorem SlotBounds.lui (rt : Nat) (imm : Half) : SlotBounds.Statement (.lui rt imm) :=
  slotBounds_of _ (.inr (by simp [Instr.src1, Instr.row]))
    (.inr (by simp [Instr.src2, Instr.row]))
    (.inl (by simp [Instr.dst, Instr.row, Instr.regNums])) (.inl rfl)

theorem SlotBounds.trap : SlotBounds.Statement (.trap) :=
  slotBounds_of _ (.inr (by simp [Instr.src1, Instr.row]))
    (.inr (by simp [Instr.src2, Instr.row]))
    (.inr (by simp [Instr.dst, Instr.row])) (.inl rfl)

theorem SlotBounds.lb (rt : Nat) (imm : Half) (rs : Nat) : SlotBounds.Statement (.lb rt imm rs) :=
  slotBounds_of _ (.inl (by simp [Instr.src1, Instr.row, Instr.regNums]))
    (.inr (by simp [Instr.src2, Instr.row]))
    (.inl (by simp [Instr.dst, Instr.row, Instr.regNums])) (.inl rfl)

theorem SlotBounds.lh (rt : Nat) (imm : Half) (rs : Nat) : SlotBounds.Statement (.lh rt imm rs) :=
  slotBounds_of _ (.inl (by simp [Instr.src1, Instr.row, Instr.regNums]))
    (.inr (by simp [Instr.src2, Instr.row]))
    (.inl (by simp [Instr.dst, Instr.row, Instr.regNums])) (.inl rfl)

theorem SlotBounds.lw (rt : Nat) (imm : Half) (rs : Nat) : SlotBounds.Statement (.lw rt imm rs) :=
  slotBounds_of _ (.inl (by simp [Instr.src1, Instr.row, Instr.regNums]))
    (.inr (by simp [Instr.src2, Instr.row]))
    (.inl (by simp [Instr.dst, Instr.row, Instr.regNums])) (.inl rfl)

theorem SlotBounds.lbu (rt : Nat) (imm : Half) (rs : Nat) : SlotBounds.Statement (.lbu rt imm rs) :=
  slotBounds_of _ (.inl (by simp [Instr.src1, Instr.row, Instr.regNums]))
    (.inr (by simp [Instr.src2, Instr.row]))
    (.inl (by simp [Instr.dst, Instr.row, Instr.regNums])) (.inl rfl)

theorem SlotBounds.lhu (rt : Nat) (imm : Half) (rs : Nat) : SlotBounds.Statement (.lhu rt imm rs) :=
  slotBounds_of _ (.inl (by simp [Instr.src1, Instr.row, Instr.regNums]))
    (.inr (by simp [Instr.src2, Instr.row]))
    (.inl (by simp [Instr.dst, Instr.row, Instr.regNums])) (.inl rfl)

theorem SlotBounds.sb (rt : Nat) (imm : Half) (rs : Nat) : SlotBounds.Statement (.sb rt imm rs) :=
  slotBounds_of _ (.inl (by simp [Instr.src1, Instr.row, Instr.regNums]))
    (.inl (by simp [Instr.src2, Instr.row, Instr.regNums]))
    (.inr (by simp [Instr.dst, Instr.row])) (.inl rfl)

theorem SlotBounds.sh (rt : Nat) (imm : Half) (rs : Nat) : SlotBounds.Statement (.sh rt imm rs) :=
  slotBounds_of _ (.inl (by simp [Instr.src1, Instr.row, Instr.regNums]))
    (.inl (by simp [Instr.src2, Instr.row, Instr.regNums]))
    (.inr (by simp [Instr.dst, Instr.row])) (.inl rfl)

theorem SlotBounds.sw (rt : Nat) (imm : Half) (rs : Nat) : SlotBounds.Statement (.sw rt imm rs) :=
  slotBounds_of _ (.inl (by simp [Instr.src1, Instr.row, Instr.regNums]))
    (.inl (by simp [Instr.src2, Instr.row, Instr.regNums]))
    (.inr (by simp [Instr.dst, Instr.row])) (.inl rfl)

theorem SlotBounds.j (target : BitVec 26) : SlotBounds.Statement (.j target) :=
  slotBounds_of _ (.inr (by simp [Instr.src1, Instr.row]))
    (.inr (by simp [Instr.src2, Instr.row]))
    (.inr (by simp [Instr.dst, Instr.row])) (.inl rfl)

theorem SlotBounds.jal (target : BitVec 26) : SlotBounds.Statement (.jal target) :=
  slotBounds_of _ (.inr (by simp [Instr.src1, Instr.row]))
    (.inr (by simp [Instr.src2, Instr.row]))
    (.inr (by simp [Instr.dst, Instr.row])) (.inl rfl)

end Sys2Proof.Laws
end

