-- ==== Sys2Proof/Laws/Run.lean ====
section
/-! SUPPORT. Runs of the machine: one more step (Host/Core.lean), and what an ended run does (spec 40 R125). -/

set_option Elab.async false

namespace Sys2Proof.Machine

/-- A run of any machine, one step taken off its front. -/
theorem run_succ_of (M : Host.Core) (k : Nat) (s t : M.State) (h : M.step s = .next t) :
    Host.Core.run M (k + 1) s = Host.Core.run M k t := by
  rw [Host.Core.run, h]

/-- A run of this machine, one step taken off its front. -/
theorem run_succ (k : Nat) (s t : State) (h : step s = .next t) :
    Host.Core.run Sys2Proof.core (k + 1) s = Host.Core.run Sys2Proof.core k t :=
  run_succ_of Sys2Proof.core k s t h

/-- A cycle may start exactly while there is no Fatal and the target is not reached (40 R125). -/
theorem isRunning_iff (s : State) :
    s.isRunning = true ↔ s.fatal = none ∧ s.retired.toNat < s.target.toNat := by
  unfold State.isRunning
  cases s.fatal <;> simp

end Sys2Proof.Machine
end

