-- ==== Sys2Proof/Tests/Slice0.lean ====
section
/-! SUPPORT. Tests of the model. Expected values come from the spec's own vectors (95 section 1 to 3) or are
worked out by hand from the rule cited at each test. Part 1: well-formedness. Part 2: the decoder, one word
for every row, written out field by field from 30 R81 and R88. Part 3: one stage of one instruction.
Part 4: one step. Part 5: for each statement with hypotheses, a concrete state and operands that meet them. -/

set_option Elab.async false

namespace Sys2Proof.Tests

open Sys2Proof Sys2Proof.Machine

/-! ### Part 1: well-formedness -/

theorem test_wellFormed_accepts :
    (Instr.sll 31 31 31#5).wellFormed = true ∧ (Instr.add 31 0 31).wellFormed = true ∧
    (Instr.lw 31 0#16 31).wellFormed = true ∧ (Instr.jal 0x3FFFFFF#26).wellFormed = true ∧
    Instr.syscall.wellFormed = true := by decide

/-- An operand 32 is refused at every position of every operand shape (10 R20: HI and LO are no operands). -/
theorem test_wellFormed_refuses_three_registers :
    (Instr.add 32 0 0).wellFormed = false ∧ (Instr.add 0 32 0).wellFormed = false ∧
    (Instr.add 0 0 32).wellFormed = false ∧ (Instr.sllv 32 0 0).wellFormed = false ∧
    (Instr.sllv 0 32 0).wellFormed = false ∧ (Instr.sllv 0 0 32).wellFormed = false := by decide

theorem test_wellFormed_refuses_two_registers :
    (Instr.sra 32 0 0#5).wellFormed = false ∧ (Instr.sra 0 32 0#5).wellFormed = false ∧
    (Instr.addi 32 0 0#16).wellFormed = false ∧ (Instr.addi 0 32 0#16).wellFormed = false ∧
    (Instr.beq 32 0 0#16).wellFormed = false ∧ (Instr.beq 0 32 0#16).wellFormed = false ∧
    (Instr.sw 32 0#16 0).wellFormed = false ∧ (Instr.sw 0 0#16 32).wellFormed = false ∧
    (Instr.mult 32 0).wellFormed = false ∧ (Instr.mult 0 32).wellFormed = false ∧
    (Instr.jalr 32 0).wellFormed = false ∧ (Instr.jalr 0 32).wellFormed = false := by decide

theorem test_wellFormed_refuses_one_register :
    (Instr.jr 32).wellFormed = false ∧ (Instr.mfhi 32).wellFormed = false ∧
    (Instr.mtlo 32).wellFormed = false ∧ (Instr.blez 32 0#16).wellFormed = false ∧
    (Instr.lui 32 0#16).wellFormed = false := by decide

/-- A section with content of another size, past the end, or starting outside (20 R55, 70 R301). -/
theorem test_section_refused :
    ({ name := ".data", start := 0, size := 2, content := [1#8] } : Section).sizeMatches = false ∧
    ({ name := ".data", start := 0xFFFFFFFF, size := 2, content := [1#8, 2#8] } : Section).inAddressSpace =
      false ∧
    ({ name := ".data", start := 0x100000000, size := 0, content := [] } : Section).inAddressSpace = false ∧
    ({ name := ".data", start := 0xFFFFFFFF, size := 1, content := [1#8] } : Section).wellFormed = true := by
  decide

/-! ### Part 2: the decoder -/

/-- Fields of 30 R81, keys of 30 R88 (41 R185 to R190). -/
theorem test_decode_shifts :
    decodeWord 0b000000_00000_01010_01000_00101_000000#32 = .ok (.sll 8 10 5#5) ∧
    decodeWord 0b000000_00000_01010_01000_00101_000010#32 = .ok (.srl 8 10 5#5) ∧
    decodeWord 0b000000_00000_01010_01000_00101_000011#32 = .ok (.sra 8 10 5#5) ∧
    decodeWord 0b000000_01001_01010_01000_00000_000100#32 = .ok (.sllv 8 10 9) ∧
    decodeWord 0b000000_01001_01010_01000_00000_000110#32 = .ok (.srlv 8 10 9) ∧
    decodeWord 0b000000_01001_01010_01000_00000_000111#32 = .ok (.srav 8 10 9) := by decide

/-- Fields of 30 R81, keys of 30 R88 (43 R226, R227, 45 R260 to R262). -/
theorem test_decode_register_jumps_and_system :
    decodeWord 0b000000_01001_00000_00000_00000_001000#32 = .ok (.jr 9) ∧
    decodeWord 0b000000_01001_00000_01000_00000_001001#32 = .ok (.jalr 8 9) ∧
    decodeWord 0b000000_00000_00000_00000_00000_001100#32 = .ok (.syscall) ∧
    decodeWord 0b000000_00000_00000_00000_00000_001101#32 = .ok (.brk) ∧
    decodeWord 0b011010_00000_00000_0000000000000000#32 = .ok (.trap) := by decide

/-- Fields of 30 R81, keys of 30 R88 (42 R200 to R209). -/
theorem test_decode_multiply_divide_moves :
    decodeWord 0b000000_00000_00000_01000_00000_010000#32 = .ok (.mfhi 8) ∧
    decodeWord 0b000000_01001_00000_00000_00000_010001#32 = .ok (.mthi 9) ∧
    decodeWord 0b000000_00000_00000_01000_00000_010010#32 = .ok (.mflo 8) ∧
    decodeWord 0b000000_01001_00000_00000_00000_010011#32 = .ok (.mtlo 9) ∧
    decodeWord 0b000000_01001_01010_00000_00000_011000#32 = .ok (.mult 9 10) ∧
    decodeWord 0b000000_01001_01010_00000_00000_011001#32 = .ok (.multu 9 10) ∧
    decodeWord 0b000000_01001_01010_00000_00000_011010#32 = .ok (.div 9 10) ∧
    decodeWord 0b000000_01001_01010_00000_00000_011011#32 = .ok (.divu 9 10) := by decide

/-- Fields of 30 R81, keys of 30 R88 (41 R170 to R192). -/
theorem test_decode_three_registers :
    decodeWord 0b000000_01001_01010_01000_00000_100000#32 = .ok (.add 8 9 10) ∧
    decodeWord 0b000000_01001_01010_01000_00000_100001#32 = .ok (.addu 8 9 10) ∧
    decodeWord 0b000000_01001_01010_01000_00000_100010#32 = .ok (.sub 8 9 10) ∧
    decodeWord 0b000000_01001_01010_01000_00000_100011#32 = .ok (.subu 8 9 10) ∧
    decodeWord 0b000000_01001_01010_01000_00000_100100#32 = .ok (.and 8 9 10) ∧
    decodeWord 0b000000_01001_01010_01000_00000_100101#32 = .ok (.or 8 9 10) ∧
    decodeWord 0b000000_01001_01010_01000_00000_100110#32 = .ok (.xor 8 9 10) ∧
    decodeWord 0b000000_01001_01010_01000_00000_100111#32 = .ok (.nor 8 9 10) ∧
    decodeWord 0b000000_01001_01010_01000_00000_101010#32 = .ok (.slt 8 9 10) ∧
    decodeWord 0b000000_01001_01010_01000_00000_101011#32 = .ok (.sltu 8 9 10) := by decide

/-- Fields of 30 R81, keys of 30 R88 (43 R220 to R223). -/
theorem test_decode_branches :
    decodeWord 0b000100_01001_01010_1000000000000001#32 = .ok (.beq 9 10 0x8001#16) ∧
    decodeWord 0b000101_01001_01010_1000000000000001#32 = .ok (.bne 9 10 0x8001#16) ∧
    decodeWord 0b000110_01001_00000_1000000000000001#32 = .ok (.blez 9 0x8001#16) ∧
    decodeWord 0b000111_01001_00000_1000000000000001#32 = .ok (.bgtz 9 0x8001#16) := by decide

/-- Fields of 30 R81, keys of 30 R88 (41 R174 to R194). -/
theorem test_decode_immediates :
    decodeWord 0b001000_01001_01010_1000000000000001#32 = .ok (.addi 10 9 0x8001#16) ∧
    decodeWord 0b001001_01001_01010_1000000000000001#32 = .ok (.addiu 10 9 0x8001#16) ∧
    decodeWord 0b001010_01001_01010_1000000000000001#32 = .ok (.slti 10 9 0x8001#16) ∧
    decodeWord 0b001011_01001_01010_1000000000000001#32 = .ok (.sltiu 10 9 0x8001#16) ∧
    decodeWord 0b001100_01001_01010_1000000000000001#32 = .ok (.andi 10 9 0x8001#16) ∧
    decodeWord 0b001101_01001_01010_1000000000000001#32 = .ok (.ori 10 9 0x8001#16) ∧
    decodeWord 0b001110_01001_01010_1000000000000001#32 = .ok (.xori 10 9 0x8001#16) ∧
    decodeWord 0b001111_00000_01010_1000000000000001#32 = .ok (.lui 10 0x8001#16) := by decide

/-- Fields of 30 R81, keys of 30 R88 (44 R240 to R247). -/
theorem test_decode_loads_and_stores :
    decodeWord 0b100000_01001_01010_1000000000000001#32 = .ok (.lb 10 0x8001#16 9) ∧
    decodeWord 0b100001_01001_01010_1000000000000001#32 = .ok (.lh 10 0x8001#16 9) ∧
    decodeWord 0b100011_01001_01010_1000000000000001#32 = .ok (.lw 10 0x8001#16 9) ∧
    decodeWord 0b100100_01001_01010_1000000000000001#32 = .ok (.lbu 10 0x8001#16 9) ∧
    decodeWord 0b100101_01001_01010_1000000000000001#32 = .ok (.lhu 10 0x8001#16 9) ∧
    decodeWord 0b101000_01001_01010_1000000000000001#32 = .ok (.sb 10 0x8001#16 9) ∧
    decodeWord 0b101001_01001_01010_1000000000000001#32 = .ok (.sh 10 0x8001#16 9) ∧
    decodeWord 0b101011_01001_01010_1000000000000001#32 = .ok (.sw 10 0x8001#16 9) := by decide

/-- Fields of 30 R81, keys of 30 R88 (43 R224, R225). -/
theorem test_decode_jumps :
    decodeWord 0b000010_10000000000000000000000011#32 = .ok (.j 0x2000003#26) ∧
    decodeWord 0b000011_10000000000000000000000011#32 = .ok (.jal 0x2000003#26) := by decide

/-- Words without a row (95 section 2.1; 30 R84). -/
theorem test_decode_refused :
    decodeWord 0x00000001#32 = .error (.noFunctRow 1) ∧ decodeWord 0x00000005#32 = .error (.noFunctRow 5) ∧
    decodeWord 0xFC000000#32 = .error (.noOpcodeRow 0x3F) ∧
    decodeWord 0x70000000#32 = .error (.noOpcodeRow 0x1C) ∧
    decodeWord 0xFFFFFFFF#32 = .error (.noOpcodeRow 0x3F) ∧
    decodeBytes [0x20#8, 0x40#8, 0x2A#8] = .error (.tooShort 3) := by decide

/-- Bits a row does not use select nothing (30 R83; 95 section 2.1: `jr` with rd field 1). -/
theorem test_decode_ignores_unused_bits :
    decodeWord 0b000000_11111_11111_11111_11111_001000#32 = .ok (.jr 31) ∧
    decodeWord 0b000000_00000_00000_00000_00000_001000#32 = .ok (.jr 0) ∧
    decodeWord 0b000110_00001_11111_0000000000000010#32 = .ok (.blez 1 2#16) ∧
    decodeWord 0b000000_11111_11111_11111_11111_001100#32 = .ok .syscall := by decide

/-- Little-endian bytes of a word (20 R57), and the table's numbering of the same word. -/
theorem test_decode_bytes :
    decodeBytes [0x20#8, 0x40#8, 0x2A#8, 0x01#8, 0xAA#8] = .ok (.add 8 9 10, [0xAA#8]) ∧
    decodeTableWord 32 0x012A4020 = some (.add 8 9 10) ∧
    encodeBytes (.add 8 9 10) = [0x20#8, 0x40#8, 0x2A#8, 0x01#8] := by decide

/-- The rendering of 95 V1 and of the listings of 95 section 3 (30 R92). -/
theorem test_render :
    (Instr.add 8 9 10).render = "add $t0, $t1, $t2" ∧ (Instr.sw 9 0#16 8).render = "sw $t1, 0($t0)" ∧
    (Instr.addiu 9 0 0xFFFE#16).render = "addiu $t1, $zero, -2" ∧ (Instr.jr 31).render = "jr $ra" := by
  decide

/-! ### Part 3: one stage of one instruction -/

/-- Parameters with OVERFLOW_MODE = wrap, SYS_MODE = nop and LINK_OFFSET = 8. -/
def altParams : Params :=
  { Params.specDefault with overflowMode := .wrap, sysMode := .nop, linkOffset := 8#32 }

/-- A record of `i` at `pc` with its operands read (10 R38). -/
def recordAt (i : Instr) (pc v1 v2 : Word) : InstrRecord :=
  { InstrRecord.null with word := encode i, pc := pc, op := i, v1 := v1, v2 := v2 }

/-- The execute handler holding `i` (40 R119), under the parameters `p`. -/
def executing (p : Params) (i : Instr) (pc v1 v2 : Word) : State :=
  { State.resetWith p targetAtReset [] with
    stage := .execute, d2e := { out := some (recordAt i pc v1 v2), written := none } }

/-- The record `i` hands to the memory stage. -/
def executed (p : Params) (i : Instr) (pc v1 v2 : Word) : Option InstrRecord :=
  match exec i (executing p i pc v1 v2) with
  | .next t => t.e2m.written
  | _ => none

/-- The result of `i` at 0x00400010 under the defaults. -/
def resultOf (i : Instr) (v1 v2 : Word) : Option Word :=
  (executed Params.specDefault i 0x00400010#32 v1 v2).map (·.result)

/-- The next pc that `i` at `pc` computes under the defaults. -/
def newPcOf (i : Instr) (pc v1 v2 : Word) : Option Word :=
  (executed Params.specDefault i pc v1 v2).map (·.newPc)

/-- LO and HI of a multiply or divide. -/
def loHiOf (i : Instr) (v1 v2 : Word) : Option (Word × Word) :=
  (executed Params.specDefault i 0x00400010#32 v1 v2).map fun r => (r.result, r.result2)

/-- The Fatal that a stage raises. -/
def stopOf (o : Result) : Option (Cause × Info) :=
  match o with
  | .next t => t.fatal.map fun e => (e.cause, e.info)
  | _ => none

/-- The Fatal of `i` at 0x00400010 in the execute stage under the defaults. -/
def executeStop (i : Instr) (v1 v2 : Word) : Option (Cause × Info) :=
  stopOf (exec i (executing Params.specDefault i 0x00400010#32 v1 v2))

/-- Bytes `FE FF FF 00` at 0x10010000 (95 section 2.5). -/
def dataBytes : Memory :=
  [(0x10010000, 0xFE#8), (0x10010001, 0xFF#8), (0x10010002, 0xFF#8), (0x10010003, 0x00#8)]

/-- The memory handler holding the record `r` (40 R120), over the memory `m`. -/
def inMemory (m : Memory) (r : InstrRecord) : State :=
  { State.resetWith Params.specDefault targetAtReset m with
    stage := .memory, e2m := { out := some r, written := none } }

/-- The memory stage of the load or store `i`, after its execute stage with base `v1` and value `v2`. -/
def memoryOf (m : Memory) (i : Instr) (v1 v2 : Word) : Option State :=
  match executed Params.specDefault i 0x00400010#32 v1 v2 with
  | some r =>
    match exec i (inMemory m r) with
    | .next t => some t
    | _ => none
  | none => none

/-- The value `i` loads. -/
def loadOf (m : Memory) (i : Instr) (v1 : Word) : Option Word :=
  (memoryOf m i v1 0#32).bind fun t => t.m2w.written.map (·.result)

/-- The memory after the store `i`. -/
def storeOf (m : Memory) (i : Instr) (v1 v2 : Word) : Option Memory :=
  (memoryOf m i v1 v2).map (·.mem)

/-- The Fatal of the load or store `i` in the memory stage. -/
def memoryStop (m : Memory) (i : Instr) (v1 : Word) : Option (Cause × Info) :=
  (memoryOf m i v1 0#32).bind fun t => t.fatal.map fun e => (e.cause, e.info)

/-- 95 section 2.2 -/
theorem test_add :
    executeStop (.add 8 9 10) 0x7FFFFFFF#32 0x00000001#32 = some (.arithmeticOverflow, .instr 0x00400010#32 "add") ∧
    (executed altParams (.add 8 9 10) 0#32 0x7FFFFFFF#32 0x00000001#32).map (·.result) = some 0x80000000#32 ∧
    resultOf (.add 8 9 10) 0x00000005#32 0xFFFFFFFD#32 = some 0x00000002#32 := by decide

/-- 95 section 2.2 -/
theorem test_addu :
    resultOf (.addu 8 9 10) 0xFFFFFFFF#32 0x00000001#32 = some 0x00000000#32 := by decide

/-- 95 section 2.2 -/
theorem test_sub :
    executeStop (.sub 8 9 10) 0x80000000#32 0x00000001#32 = some (.arithmeticOverflow, .instr 0x00400010#32 "sub") ∧
    (executed altParams (.sub 8 9 10) 0#32 0x80000000#32 0x00000001#32).map (·.result) = some 0x7FFFFFFF#32 ∧
    resultOf (.sub 8 9 10) 0x00000005#32 0x00000007#32 = some 0xFFFFFFFE#32 := by decide

/-- 95 section 2.2 -/
theorem test_subu :
    resultOf (.subu 8 9 10) 0x00000000#32 0x00000001#32 = some 0xFFFFFFFF#32 := by decide

/-- 95 section 2.2 -/
theorem test_and :
    resultOf (.and 8 9 10) 0xF0F0F0F0#32 0xFF00FF00#32 = some 0xF000F000#32 := by decide

/-- 95 section 2.2 -/
theorem test_or :
    resultOf (.or 8 9 10) 0xF0F0F0F0#32 0xFF00FF00#32 = some 0xFFF0FFF0#32 := by decide

/-- 95 section 2.2 -/
theorem test_xor :
    resultOf (.xor 8 9 10) 0xF0F0F0F0#32 0xFF00FF00#32 = some 0x0FF00FF0#32 := by decide

/-- 95 section 2.2 -/
theorem test_nor :
    resultOf (.nor 8 9 10) 0xF0F0F0F0#32 0xFF00FF00#32 = some 0x000F000F#32 := by decide

/-- 95 section 2.2 -/
theorem test_slt :
    resultOf (.slt 8 9 10) 0xFFFFFFFF#32 0x00000001#32 = some 0x00000001#32 ∧
    resultOf (.slt 8 9 10) 0x7FFFFFFF#32 0x80000000#32 = some 0x00000000#32 := by decide

/-- 95 section 2.2 -/
theorem test_sltu :
    resultOf (.sltu 8 9 10) 0xFFFFFFFF#32 0x00000001#32 = some 0x00000000#32 ∧
    resultOf (.sltu 8 9 10) 0x7FFFFFFF#32 0x80000000#32 = some 0x00000001#32 := by decide

/-- 95 section 2.2 -/
theorem test_sll :
    resultOf (.sll 8 10 31#5) 0x00000001#32 0x00000000#32 = some 0x80000000#32 ∧
    resultOf (.sll 8 10 1#5) 0x80000001#32 0x00000000#32 = some 0x00000002#32 ∧
    resultOf (.sll 8 10 0#5) 0x12345678#32 0x00000000#32 = some 0x12345678#32 := by decide

/-- 95 section 2.2 -/
theorem test_srl :
    resultOf (.srl 8 10 31#5) 0x80000000#32 0x00000000#32 = some 0x00000001#32 ∧
    resultOf (.srl 8 10 4#5) 0x80000000#32 0x00000000#32 = some 0x08000000#32 := by decide

/-- 95 section 2.2 -/
theorem test_sra :
    resultOf (.sra 8 10 31#5) 0x80000000#32 0x00000000#32 = some 0xFFFFFFFF#32 ∧
    resultOf (.sra 8 10 4#5) 0x80000000#32 0x00000000#32 = some 0xF8000000#32 := by decide

/-- 95 section 2.2: v1 is rt, v2 is rs -/
theorem test_sllv :
    resultOf (.sllv 8 10 9) 0x00000001#32 0x00000021#32 = some 0x00000002#32 := by decide

/-- 95 section 2.2 -/
theorem test_srlv :
    resultOf (.srlv 8 10 9) 0x80000000#32 0x00000024#32 = some 0x08000000#32 := by decide

/-- 95 section 2.2 -/
theorem test_srav :
    resultOf (.srav 8 10 9) 0x80000000#32 0xFFFFFFFF#32 = some 0xFFFFFFFF#32 := by decide

/-- 95 section 2.2 -/
theorem test_addi :
    executeStop (.addi 10 9 1#16) 0x7FFFFFFF#32 0x00000000#32 = some (.arithmeticOverflow, .instr 0x00400010#32 "addi") ∧
    executeStop (.addi 10 9 0xFFFF#16) 0x80000000#32 0x00000000#32 = some (.arithmeticOverflow, .instr 0x00400010#32 "addi") ∧
    (executed altParams (.addi 10 9 1#16) 0#32 0x7FFFFFFF#32 0x00000000#32).map (·.result) = some 0x80000000#32 ∧
    resultOf (.addi 10 9 0xFFFF#16) 0x00000005#32 0x00000000#32 = some 0x00000004#32 := by decide

/-- 95 section 2.2 -/
theorem test_addiu :
    resultOf (.addiu 10 9 0xFFFF#16) 0x00000000#32 0x00000000#32 = some 0xFFFFFFFF#32 ∧
    resultOf (.addiu 10 9 1#16) 0x7FFFFFFF#32 0x00000000#32 = some 0x80000000#32 := by decide

/-- 95 section 2.2 -/
theorem test_slti :
    resultOf (.slti 10 9 0#16) 0xFFFFFFFF#32 0x00000000#32 = some 0x00000001#32 ∧
    resultOf (.slti 10 9 0xFFFF#16) 0x00000000#32 0x00000000#32 = some 0x00000000#32 := by decide

/-- 95 section 2.2 -/
theorem test_sltiu :
    resultOf (.sltiu 10 9 0xFFFF#16) 0x00000000#32 0x00000000#32 = some 0x00000001#32 ∧
    resultOf (.sltiu 10 9 0xFFFF#16) 0xFFFFFFFF#32 0x00000000#32 = some 0x00000000#32 ∧
    resultOf (.sltiu 10 9 0x8000#16) 0x7FFFFFFF#32 0x00000000#32 = some 0x00000001#32 := by decide

/-- 95 section 2.2 -/
theorem test_andi :
    resultOf (.andi 10 9 0xFFFF#16) 0xFFFFFFFF#32 0x00000000#32 = some 0x0000FFFF#32 ∧
    resultOf (.andi 10 9 0x8000#16) 0x12345678#32 0x00000000#32 = some 0x00000000#32 := by decide

/-- 95 section 2.2 -/
theorem test_ori :
    resultOf (.ori 10 9 0x8000#16) 0x00000000#32 0x00000000#32 = some 0x00008000#32 ∧
    resultOf (.ori 10 9 0x1234#16) 0xFFFF0000#32 0x00000000#32 = some 0xFFFF1234#32 := by decide

/-- 95 section 2.2 -/
theorem test_xori :
    resultOf (.xori 10 9 0xFFFF#16) 0xFFFFFFFF#32 0x00000000#32 = some 0xFFFF0000#32 := by decide

/-- 95 section 2.2 -/
theorem test_lui :
    resultOf (.lui 10 0x8000#16) 0x00000000#32 0x00000000#32 = some 0x80000000#32 ∧
    resultOf (.lui 10 0x1234#16) 0x00000000#32 0x00000000#32 = some 0x12340000#32 := by decide

/-- 95 section 2.3: LO, then HI -/
theorem test_mult :
    loHiOf (.mult 8 9) 0xFFFFFFF9#32 0x00000002#32 = some (0xFFFFFFF2#32, 0xFFFFFFFF#32) ∧
    loHiOf (.mult 8 9) 0x80000000#32 0x80000000#32 = some (0x00000000#32, 0x40000000#32) ∧
    loHiOf (.mult 8 9) 0xFFFFFFFF#32 0xFFFFFFFF#32 = some (0x00000001#32, 0x00000000#32) := by decide

/-- 95 section 2.3: LO, then HI -/
theorem test_multu :
    loHiOf (.multu 8 9) 0xFFFFFFFF#32 0xFFFFFFFF#32 = some (0x00000001#32, 0xFFFFFFFE#32) ∧
    loHiOf (.multu 8 9) 0xFFFFFFF9#32 0x00000002#32 = some (0xFFFFFFF2#32, 0x00000001#32) := by decide

/-- 95 section 2.3: LO, then HI -/
theorem test_div :
    loHiOf (.div 8 9) 0xFFFFFFF9#32 0x00000002#32 = some (0xFFFFFFFD#32, 0xFFFFFFFF#32) ∧
    loHiOf (.div 8 9) 0x00000007#32 0xFFFFFFFE#32 = some (0xFFFFFFFD#32, 0x00000001#32) ∧
    loHiOf (.div 8 9) 0xFFFFFFF9#32 0xFFFFFFFE#32 = some (0x00000003#32, 0xFFFFFFFF#32) ∧
    loHiOf (.div 8 9) 0x80000000#32 0x00000001#32 = some (0x80000000#32, 0x00000000#32) := by decide

/-- 95 section 2.3 -/
theorem test_div_stops :
    executeStop (.div 8 9) 0x80000000#32 0xFFFFFFFF#32 = some (.divideOverflow, .instr 0x00400010#32 "div") ∧
    executeStop (.div 8 9) 0x00000005#32 0x00000000#32 = some (.divideByZero, .instr 0x00400010#32 "div") := by decide

/-- 95 section 2.3: LO, then HI -/
theorem test_divu :
    loHiOf (.divu 8 9) 0x00000007#32 0x00000002#32 = some (0x00000003#32, 0x00000001#32) ∧
    loHiOf (.divu 8 9) 0xFFFFFFF9#32 0x00000002#32 = some (0x7FFFFFFC#32, 0x00000001#32) ∧
    loHiOf (.divu 8 9) 0x80000000#32 0xFFFFFFFF#32 = some (0x00000000#32, 0x80000000#32) ∧
    executeStop (.divu 8 9) 0x00000005#32 0x00000000#32 = some (.divideByZero, .instr 0x00400010#32 "divu") := by decide

/-- 42 R206: the value moves, and the operand row -/
theorem test_mfhi :
    resultOf (.mfhi 8) 0xDEADBEEF#32 0x00000000#32 = some 0xDEADBEEF#32 ∧
    (Instr.mfhi 8).row = { src1 := 32, dst := 8 } := by decide

/-- 42 R207: the value moves, and the operand row -/
theorem test_mthi :
    resultOf (.mthi 9) 0xDEADBEEF#32 0x00000000#32 = some 0xDEADBEEF#32 ∧
    (Instr.mthi 9).row = { src1 := 9, dst := 32 } := by decide

/-- 42 R208: the value moves, and the operand row -/
theorem test_mflo :
    resultOf (.mflo 8) 0xDEADBEEF#32 0x00000000#32 = some 0xDEADBEEF#32 ∧
    (Instr.mflo 8).row = { src1 := 33, dst := 8 } := by decide

/-- 42 R209: the value moves, and the operand row -/
theorem test_mtlo :
    resultOf (.mtlo 9) 0xDEADBEEF#32 0x00000000#32 = some 0xDEADBEEF#32 ∧
    (Instr.mtlo 9).row = { src1 := 9, dst := 33 } := by decide

/-- 95 section 2.4 -/
theorem test_beq :
    newPcOf (.beq 8 9 0xFFFF#16) 0x00400010#32 0x00000001#32 0x00000001#32 = some 0x00400010#32 ∧
    newPcOf (.beq 8 9 0xFFFF#16) 0x00400010#32 0x00000001#32 0x00000002#32 = some 0x00400014#32 ∧
    newPcOf (.beq 8 9 3#16) 0x00400010#32 0x00000000#32 0x00000000#32 = some 0x00400020#32 ∧
    newPcOf (.beq 8 9 0x8000#16) 0x00000000#32 0x00000000#32 0x00000000#32 = some 0xFFFE0004#32 := by decide

/-- 95 section 2.4 -/
theorem test_bne :
    newPcOf (.bne 8 9 0x8000#16) 0x00400010#32 0x00000001#32 0x00000002#32 = some 0x003E0014#32 ∧
    newPcOf (.bne 8 9 5#16) 0x00400010#32 0x00000003#32 0x00000003#32 = some 0x00400014#32 := by decide

/-- 95 section 2.4 -/
theorem test_blez :
    newPcOf (.blez 8 2#16) 0x00400010#32 0x00000000#32 0x00000000#32 = some 0x0040001C#32 ∧
    newPcOf (.blez 8 2#16) 0x00400010#32 0x80000000#32 0x00000000#32 = some 0x0040001C#32 ∧
    newPcOf (.blez 8 2#16) 0x00400010#32 0x00000001#32 0x00000000#32 = some 0x00400014#32 := by decide

/-- 95 section 2.4 -/
theorem test_bgtz :
    newPcOf (.bgtz 8 2#16) 0x00400010#32 0x00000000#32 0x00000000#32 = some 0x00400014#32 ∧
    newPcOf (.bgtz 8 2#16) 0x00400010#32 0x00000001#32 0x00000000#32 = some 0x0040001C#32 ∧
    newPcOf (.bgtz 8 2#16) 0x00400010#32 0x80000000#32 0x00000000#32 = some 0x00400014#32 := by decide

/-- 95 section 2.4 -/
theorem test_j :
    newPcOf (.j 0x0100000#26) 0x00400010#32 0x00000000#32 0x00000000#32 = some 0x00400000#32 ∧
    newPcOf (.j 0x0000010#26) 0x0FFFFFFC#32 0x00000000#32 0x00000000#32 = some 0x10000040#32 ∧
    newPcOf (.j 0x3FFFFFF#26) 0xFFFFFFFC#32 0x00000000#32 0x00000000#32 = some 0x0FFFFFFC#32 := by decide

/-- 95 section 2.4, also with LINK_OFFSET = 8 -/
theorem test_jal :
    newPcOf (.jal 0x0100007#26) 0x00400010#32 0x00000000#32 0x00000000#32 = some 0x0040001C#32 ∧
    resultOf (.jal 0x0100007#26) 0x00000000#32 0x00000000#32 = some 0x00400014#32 ∧
    (executed altParams (.jal 0x0100007#26) 0x00400010#32 0#32 0#32).map (·.result) = some 0x00400018#32 ∧
    (Instr.jal 0x0100007#26).row = { dst := 31 } := by decide

/-- 95 section 2.4: a misaligned target is taken as it stands -/
theorem test_jr :
    newPcOf (.jr 8) 0x00400010#32 0x00400002#32 0x00000000#32 = some 0x00400002#32 := by decide

/-- 95 section 2.4 -/
theorem test_jalr :
    newPcOf (.jalr 9 8) 0x00400010#32 0x00400020#32 0x00000000#32 = some 0x00400020#32 ∧
    resultOf (.jalr 9 8) 0x00400020#32 0x00000000#32 = some 0x00400014#32 ∧
    (Instr.jalr 9 8).row = { src1 := 8, dst := 9 } := by decide

/-- 95 section 2.5 -/
theorem test_lb :
    loadOf dataBytes (.lb 10 0#16 8) 0x10010000#32 = some 0xFFFFFFFE#32 ∧
    (executed Params.specDefault (.lb 10 0x8000#16 8) 0#32 0#32 0#32).map (·.addr) = some 0xFFFF8000#32 := by decide

/-- 95 section 2.5 -/
theorem test_lbu :
    loadOf dataBytes (.lbu 10 1#16 8) 0x10010000#32 = some 0x000000FF#32 := by decide

/-- 95 section 2.5; and the bytes FF FF, sign-extended (44 R241) -/
theorem test_lh :
    loadOf dataBytes (.lh 10 2#16 8) 0x10010000#32 = some 0x000000FF#32 ∧
    loadOf dataBytes (.lh 10 1#16 8) 0x10010000#32 = some 0xFFFFFFFF#32 := by decide

/-- 95 section 2.5 -/
theorem test_lhu :
    loadOf dataBytes (.lhu 10 1#16 8) 0x10010000#32 = some 0x0000FFFF#32 := by decide

/-- 95 section 2.5 -/
theorem test_lw :
    loadOf dataBytes (.lw 10 0#16 8) 0x10010000#32 = some 0x00FFFFFE#32 ∧
    (executed Params.specDefault (.lw 10 0xFFFC#16 8) 0#32 0x10010000#32 0#32).map (·.addr) = some 0x1000FFFC#32 := by decide

/-- 95 section 2.5 -/
theorem test_lw_stops :
    memoryStop dataBytes (.lw 10 4#16 8) 0x10010000#32 = some (.unmappedLoad, .address 0x10010004) ∧
    memoryStop [(0xFFFFFFFE, 0#8), (0xFFFFFFFF, 0#8)] (.lw 10 0#16 8) 0xFFFFFFFE#32 =
      some (.addressOutOfRange, .address 0x100000000) ∧
    memoryStop [] (.lw 10 0#16 8) 0xFFFFFFFE#32 = some (.unmappedLoad, .address 0xFFFFFFFE) := by decide

/-- 95 section 2.5 -/
theorem test_sb :
    storeOf dataBytes (.sb 10 3#16 8) 0x10010000#32 0x12345678#32 =
      some [(0x10010000, 0xFE#8), (0x10010001, 0xFF#8), (0x10010002, 0xFF#8), (0x10010003, 0x78#8)] := by decide

/-- 95 section 2.5 -/
theorem test_sh :
    storeOf dataBytes (.sh 10 1#16 8) 0x10010000#32 0x12345678#32 =
      some [(0x10010000, 0xFE#8), (0x10010001, 0x78#8), (0x10010002, 0x56#8), (0x10010003, 0x00#8)] := by decide

/-- 95 section 2.5: the address wraps (44 R248) -/
theorem test_sw :
    storeOf [] (.sw 10 1#16 8) 0xFFFFFFFF#32 0x12345678#32 =
      some [(0, 0x78#8), (1, 0x56#8), (2, 0x34#8), (3, 0x12#8)] := by decide

/-- 95 section 2.5 -/
theorem test_sw_stops :
    memoryStop [] (.sw 10 0#16 8) 0xFFFFFFFE#32 = some (.addressOutOfRange, .address 0x100000000) ∧
    storeOf [] (.sw 10 0#16 8) 0xFFFFFFFE#32 0x12345678#32 = some [] := by decide

/-- 95 section 2.6, and SYS_MODE = nop -/
theorem test_syscall :
    executeStop (.syscall) 0x00000000#32 0x00000000#32 = some (.systemInstruction, .instr 0x00400010#32 "syscall") ∧
    executed altParams .syscall 0#32 0#32 0#32 = some (recordAt .syscall 0#32 0#32 0#32) := by decide

/-- 95 section 2.6, and SYS_MODE = nop -/
theorem test_break :
    executeStop (.brk) 0x00000000#32 0x00000000#32 = some (.systemInstruction, .instr 0x00400010#32 "break") ∧
    executed altParams .brk 0#32 0#32 0#32 = some (recordAt .brk 0#32 0#32 0#32) := by decide

/-- 95 section 2.6, and SYS_MODE = nop -/
theorem test_trap :
    executeStop (.trap) 0x00000000#32 0x00000000#32 = some (.systemInstruction, .instr 0x00400010#32 "trap") ∧
    executed altParams .trap 0#32 0#32 0#32 = some (recordAt .trap 0#32 0#32 0#32) := by decide

/-- The decode handler holding the word of `i` (40 R116), over a reset register file with `p`. -/
def decoding (p : Params) (i : Instr) : State :=
  { State.resetWith p targetAtReset [] with
    stage := .decode, f2d := { out := some ⟨encode i, 0x00400000#32⟩, written := none } }

/-- The writeback handler holding the record `r` (40 R115), its destinations pending. -/
def retiring (r : InstrRecord) : State :=
  { State.invalidate (State.invalidate State.reset r.dst) r.dst2 with
    m2w := { out := some r, written := none } }

/-- The issue reads both sources, marks both destinations and advances the pc (40 R116; 42 R202: LO and HI). -/
theorem test_issue_div :
    (match exec (.div 8 9) (decoding Params.atReset (.div 8 9)) with
      | .next t => t.isPending 32 && t.isPending 33 && !t.isPending 8 && t.pc == 0x00400004#32 &&
          t.d2e.written.isSome
      | _ => false) = true := by decide

/-- The issue of a jump leaves the pc and makes it invalid; `jal` marks slot 31 (40 R116 step 7, 43 R225). -/
theorem test_issue_jal :
    (match exec (.jal 0x0100007#26) (decoding Params.specDefault (.jal 0x0100007#26)) with
      | .next t => t.isPending 31 && !t.pcValid && t.pc == 0x00400000#32
      | _ => false) = true := by decide

/-- An unwritten source (95 V3: `addu $t0, $t1, $zero` first gives 9, `mfhi $t0` first gives 32). -/
theorem test_unwritten_source :
    stopOf (exec (.addu 8 9 0) (decoding Params.specDefault (.addu 8 9 0))) =
      some (.uninitializedRegister, .slot 9) ∧
    stopOf (exec (.mfhi 8) (decoding Params.specDefault (.mfhi 8))) =
      some (.uninitializedRegister, .slot 32) := by decide

/-- A write to `$zero` has no effect and marks nothing pending (95 section 2.2; 10 R21, R24). -/
theorem test_issue_to_zero :
    (match exec (.addiu 0 0 5#16) (decoding Params.specDefault (.addiu 0 0 5#16)) with
      | .next t => !t.isPending 0 && t.readSlot 0 == 0#32 && t.fatal.isNone
      | _ => false) = true := by decide

/-- The retirement writes both destinations, clears both pending bits and counts (40 R115, 10 R31). -/
theorem test_retire_mult :
    (match exec (.mult 8 9) (retiring { recordAt (.mult 8 9) 0#32 0#32 0#32 with result := 5#32, result2 := 6#32 }) with
      | .next t => t.readSlot 33 == 5#32 && t.readSlot 32 == 6#32 && !t.isPending 32 && !t.isPending 33 &&
          t.retired == 1#64
      | _ => false) = true := by decide

/-- A retiring jump redirects the pc and makes it valid (40 R115; 43 R229). -/
theorem test_retire_jr :
    (match exec (.jr 31) { retiring { recordAt (.jr 31) 0#32 0#32 0#32 with newPc := 0x00400018#32 } with
        pcValid := false } with
      | .next t => t.pc == 0x00400018#32 && t.pcValid && t.retired == 1#64
      | _ => false) = true := by decide

/-- A second write of a slot that is no longer pending (95 P5: slot 8). -/
theorem test_unpending_write :
    stopOf (exec (.addiu 8 0 2#16)
      { State.reset with m2w := { out := some (recordAt (.addiu 8 0 2#16) 0#32 0#32 0#32), written := none } }) =
      some (.pendingWriteViolation, .slot 8) := by decide

/-! ### Part 4: one step -/

/-- The state after one step, if there is one. -/
def stepped (s : State) : Option State :=
  match step s with
  | .next t => some t
  | _ => none

/-- Cycle 0 with nothing loaded: the fetch fails (40 R118, 60 R271), and the cycle stops (40 R130). -/
theorem test_step_reset :
    (stepped State.reset).map (fun t => (t.fatal, t.cycle)) =
      some (some ⟨.unmappedFetch, .address 0x00400000, 0#64, .fetch⟩, 0#64) := by decide +kernel

/-- A placed word is decoded and issued by the very next step (log 8). -/
theorem test_step_runs_placed_word :
    (stepped (State.reset.withFetchWord 32 0x20090005)).map
        (fun t => (t.d2e.out.map (·.op), t.isPending 9, t.pc, t.cycle, t.fatal)) =
      some (some (.addi 9 0 5#16), true, 0x00400004#32, 1#64, none) := by decide +kernel

/-- The same for a word without a row: Fatal(DecodeFailure) with the word and its pc (30 R84). -/
theorem test_step_refuses_placed_word :
    (stepped (State.reset.withFetchWord 32 0xFC000000)).map (fun t => t.fatal) =
      some (some ⟨.decodeFailure, .word 0xFC000000#32 0x00400000#32, 0#64, .decode⟩) := by decide +kernel

/-- The start of cycle 4 of 95 P1: the `addi` is in M2W, the `add` is held, slot 9 is pending. -/
def p1Cycle4 : State :=
  { State.invalidate State.reset 9 with
    pc := 0x00400004#32
    cycle := 4#64
    hold := some ⟨0x01295020#32, 0x00400004#32⟩
    d2f := { out := some true, written := none }
    m2w := { out := some { recordAt (.addi 9 0 5#16) 0x00400000#32 0#32 0#32 with result := 5#32 }, written := none } }

/-- Cycle 4 of 95 P1: the `addi` retires, the `add` issues in the same cycle with both operands 5, and the
fetch is still stalled. -/
theorem test_step_p1_cycle4 :
    (stepped p1Cycle4).any (fun t => decide (t.readSlot 9 = 5#32 ∧ t.retired = 1#64 ∧ t.hold = none ∧
      t.d2e.out.map (fun r => (r.op, r.v1, r.v2)) = some (.add 10 9 9, 5#32, 5#32) ∧ t.f2d.out = none ∧
      t.pc = 0x00400008#32)) = true := by decide +kernel

/-- Cycle 2 of 95 P1: the `addi` executes while the `add` stalls in decode, and a word is fetched and lost. -/
def p1Cycle2 : State :=
  { State.invalidate (State.resetWith Params.atReset targetAtReset
        [(0x00400004, 0x20#8), (0x00400005, 0x50#8), (0x00400006, 0x29#8), (0x00400007, 0x01#8)]) 9 with
    pc := 0x00400004#32
    cycle := 2#64
    f2d := { out := some ⟨0x01295020#32, 0x00400004#32⟩, written := none }
    d2e := { out := some (recordAt (.addi 9 0 5#16) 0x00400000#32 0#32 0#32), written := none } }

theorem test_step_p1_cycle2 :
    (stepped p1Cycle2).any (fun t => decide (t.hold = some ⟨0x01295020#32, 0x00400004#32⟩ ∧
      t.d2f.out = some true ∧ t.f2d.out = some ⟨0x01295020#32, 0x00400004#32⟩ ∧ t.d2e.out = none ∧
      t.e2m.out.map (·.result) = some 5#32 ∧ t.pc = 0x00400004#32)) = true := by decide +kernel

/-- A `j` in M2W with its target mapped: the start of cycle 4 of the first program of 95 V5. -/
def v5Cycle4 : State :=
  { State.resetWith Params.specDefault targetAtReset
      [(0x00400008, 0x01#8), (0x00400009, 0x00#8), (0x0040000A, 0x08#8), (0x0040000B, 0x24#8)] with
    pcValid := false
    cycle := 4#64
    m2w :=
      { out := some { recordAt (.j 0x0100002#26) 0x00400000#32 0#32 0#32 with newPc := 0x00400008#32 }
        written := none } }

/-- The fetch of the cycle in which a jump retires reads at its target (95 V5; 43 R228). -/
theorem test_step_v5_cycle4 :
    (stepped v5Cycle4).map (fun t => (t.pc, t.pcValid, t.f2d.out, t.retired)) =
      some (0x00400008#32, true, some ⟨0x24080001#32, 0x00400008#32⟩, 1#64) := by decide +kernel

/-- N = 0 is done at reset: no cycle runs (95 V6; 70 R302). -/
theorem test_step_done_at_reset :
    stepped (State.resetWith Params.specDefault 0#64 []) = some (State.resetWith Params.specDefault 0#64 []) := by
  decide +kernel

/-- Page-crossing and set-crossing writes (95 V2). -/
theorem test_memory_v2 :
    (match memWrite State.reset 0x10010FFE 4 0xA5A51234 with
      | .ok t => decide (memRead t .unmappedLoad 0x10010FFE 4 = .ok 0xA5A51234 ∧
          memRead t .unmappedLoad 0x10011000 2 = .ok 0xA5A5 ∧ t.byteAt 0x10010FFE = some 0x34#8)
      | .error _ => false) = true ∧
    (match memWrite State.reset 0x103FFFFC 8 0x1122334455667788 with
      | .ok t => decide (memRead t .unmappedLoad 0x103FFFFC 8 = .ok 0x1122334455667788)
      | .error _ => false) = true := by decide +kernel

/-- `boot` with a `.text` and a later overlapping section: the later one wins, the pc is the start of the last
`.text` (20 R55, 70 R301). -/
theorem test_boot :
    (match boot Params.specDefault 1#64
        [⟨".text", 0x00400000, 2, [1#8, 2#8]⟩, ⟨".data", 0x00400001, 1, [9#8]⟩, ⟨".text", 0x00500000, 1, [3#8]⟩] with
      | .next t => decide (t.pc = 0x00500000#32 ∧ t.stage = .writeback ∧
          t.mem = [(0x00400000, 1#8), (0x00400001, 9#8), (0x00500000, 3#8)])
      | _ => false) = true := by decide +kernel

/-- A byte that the environment cannot store: Fatal(AllocationFailure) at its address (20 R68, 60 R271). -/
theorem test_boot_allocation_failure :
    stopOf (boot { Params.specDefault with unstorable := [0x00400001] } 1#64
        [⟨".text", 0x00400000, 2, [1#8, 2#8]⟩]) =
      some (.allocationFailure, .address 0x00400001) := by decide +kernel

/-! ### Part 5: the hypotheses of the statements are met -/

/-- The outcome is a next state with property `p`. -/
def nextSat (o : Result) (p : State → Bool) : Bool :=
  match o with
  | .next t => p t
  | _ => false

theorem exists_of_nextSat (o : Result) (p : State → Bool) (h : nextSat o p = true) :
    ∃ t, o = .next t ∧ p t = true := by
  cases o with
  | next t => exact ⟨t, rfl, h⟩
  | fault e => cases h
  | refused e => cases h

theorem next_safe (o : Result) (h : nextSat o (fun t => t.fatal.isNone) = true) :
    ∃ t, o = .next t ∧ t.isSafe := by
  obtain ⟨t, h1, h2⟩ := exists_of_nextSat o _ h
  exact ⟨t, h1, by simpa [State.isSafe] using h2⟩

/-- The engine's invariant as a check that can be evaluated. -/
def engineCheck (s : State) : Bool :=
  decide (s.stage = .writeback ∧ s.f2d.written = none ∧ s.d2e.written = none ∧ s.e2m.written = none ∧
    s.m2w.written = none ∧ s.d2f.written = none ∧ s.e2d = Port.empty ∧ s.m2e = Port.empty ∧
    s.w2m = Port.empty) &&
  (s.f2d.out.all (fun f => f.pc == s.pc) && s.hold.all (fun f => f.pc == s.pc)) &&
  ((!s.pcValid) == s.inFlight.any (fun r => r.op.isJump)) &&
  (!(s.inFlight.any fun r => r.op.isJump) ||
    (s.hold.isNone && s.f2d.out.isNone && s.d2f.out.isNone)) &&
  (s.e2m.out.all (fun r => !r.op.isJump || s.d2e.out.isNone) &&
    s.m2w.out.all (fun r => !r.op.isJump || (s.d2e.out.isNone && s.e2m.out.isNone))) &&
  (List.range 34).all (fun i => !s.isPending i || s.inFlight.any fun r => r.dst == i || r.dst2 == i) &&
  s.inFlight.all (fun r => decide (decodeWord r.word = .ok r.op)) &&
  s.hold.all (fun f => (decodeWord f.word).toOption.isSome)

theorem engineInv_of_check (s : State) (h : engineCheck s = true) : EngineInv s := by
  simp only [engineCheck, Bool.and_eq_true, decide_eq_true_eq, beq_iff_eq] at h
  obtain ⟨⟨⟨⟨⟨⟨⟨⟨h1, h2, h3, h4, h5, h6, h7, h8, h9⟩, hf, hh⟩, hp⟩, hj⟩, he, hm⟩, hpend⟩, hr⟩, hd⟩ := h
  have any_iff : s.inFlight.any (fun r => r.op.isJump) = true ↔ s.jumpInFlight := by
    simp [State.jumpInFlight, List.any_eq_true]
  refine ⟨h1, ⟨h2, h3, h4, h5⟩, h6, ⟨h7, h8, h9⟩, ⟨?_, ?_⟩, ?_, ?_, ⟨?_, ?_⟩, ?_, ?_, ?_⟩
  · intro f hf'; simpa [hf'] using hf
  · intro f hf'; simpa [hf'] using hh
  · rw [← any_iff, ← hp]; simp
  · intro hj'
    rw [← any_iff] at hj'
    simpa [hj', and_assoc] using hj
  · intro r hr' hj'; simpa [hr', hj'] using he
  · intro r hr' hj'; simpa [hr', hj'] using hm
  · intro i hi
    by_cases hlt : i < 34
    · have := List.all_eq_true.mp hpend i (List.mem_range.mpr hlt)
      simpa [hi] using this
    · rw [isPending_of_ge s i (Nat.le_of_not_lt hlt)] at hi; cases hi
  · intro r hr'; simpa using List.all_eq_true.mp hr r hr'
  · intro f hf'
    simp only [hf', Option.all_some] at hd
    cases hx : decodeWord f.word with
    | error e => simp [hx, Except.toOption] at hd
    | ok i => exact ⟨i, rfl⟩

/-- WAW_INTERLOCK = true with every register written. -/
def wawParams : Params :=
  { Params.atReset with wawInterlock := true }

/-- The program of 95 P1. -/
def p1Bytes : Memory :=
  storeBytes (storeBytes (storeBytes [] 0x00400000 4 0x20090005) 0x00400004 4 0x01295020) 0x00400008 4
    0x1000FFFF

/-- 95 P1 at the start of cycle 2, its whole program loaded. -/
def p1At2 : State := { p1Cycle2 with mem := p1Bytes }

/-- 95 P1 at the start of cycle 4, its whole program loaded. -/
def p1At4 : State := { p1Cycle4 with mem := p1Bytes }

/-- Three instructions in flight, the oldest about to retire, the next word mapped. -/
def threeInFlight : State :=
  { (((State.resetWith Params.atReset targetAtReset (storeBytes [] 0x0040000C 4 0)).invalidate 8).invalidate
      9).invalidate 10 with
    pc := 0x0040000C#32
    m2w := { out := some (recordAt (.addiu 8 0 1#16) 0x00400000#32 0#32 0#32), written := none }
    e2m := { out := some (recordAt (.addiu 9 0 2#16) 0x00400004#32 0#32 0#32), written := none }
    d2e := { out := some (recordAt (.addiu 10 0 3#16) 0x00400008#32 0#32 0#32), written := none } }

/-- A jump just issued. -/
def jumpIssued : State :=
  { State.reset with
    pcValid := false, d2e := { out := some (recordAt (.jr 31) 0x00400000#32 0#32 0#32), written := none } }

theorem witness_DecodeEncodeRoundTrip :
    (Instr.sllv 31 0 31).wellFormed = true ∧ (Instr.beq 31 31 0xFFFF#16).wellFormed = true ∧
    (Instr.jal 0x3FFFFFF#26).wellFormed = true := by decide

/-- Words with every unused bit set decode to the row of their key, with the fields of the format. -/
theorem witness_DecodedInstructionKeepsItsKey :
    (decodeWord 0x03E00808#32 = .ok (.jr 31) ∧ opcodeOf 0x03E00808#32 = 0 ∧ functOf 0x03E00808#32 = 0x08) ∧
    (decodeWord 0x68FFFFFF#32 = .ok .trap ∧ opcodeOf 0x68FFFFFF#32 = 0x1A) ∧
    (decodeWord 0x03E1FFC2#32 = .ok (.srl 31 1 31#5) ∧ functOf 0x03E1FFC2#32 = 0x02) ∧
    (decodeWord 0x1BFFFFFE#32 = .ok (.blez 31 0xFFFE#16) ∧ opcodeOf 0x1BFFFFFE#32 = 0x06) ∧
    (decodeWord 0x0FFFFFFF#32 = .ok (.jal 0x3FFFFFF#26) ∧ opcodeOf 0x0FFFFFFF#32 = 0x03) := by decide

theorem witness_OnlyTheKeySelectsTheRow :
    (opcodeOf 0x03E00808#32 = opcodeOf 0x00000008#32 ∧ functOf 0x03E00808#32 = functOf 0x00000008#32) ∧
    opcodeOf 0x68FFFFFF#32 = opcodeOf 0x68000000#32 ∧ opcodeOf 0x68FFFFFF#32 ≠ 0 := by decide

theorem witness_ResetValues :
    (0 < 1 ∧ 1 < 34 ∧ ([(33, 7#32)] : List (Nat × Word)).lookup 1 = none) ∧
    (0 < 33 ∧ 33 < 34 ∧ ([(33, 7#32)] : List (Nat × Word)).lookup 33 = some 7#32) ∧
    Params.specDefault.mapGranularity = .byte := by decide

/-- An image for `boot`: two sections that overlap, and a `.text` that ends at 0xFFFFFFFF. -/
def imageFront : Section := ⟨textName, 0x00400000, 2, [1#8, 2#8]⟩
/-- The overlapping section. -/
def imageData : Section := ⟨".data", 0x00400001, 1, [9#8]⟩
/-- The last `.text` section. -/
def imageText : Section := ⟨textName, 0xFFFFFFFF, 1, [3#8]⟩

theorem witness_BootRefusesBadImages :
    ((∀ c ∈ [imageData], c.wellFormed = true) ∧ ∀ c ∈ [imageData], c.name ≠ textName) ∧
    ∃ c ∈ [imageText, ⟨".bss", 0xFFFFFFFF, 2, [0#8, 0#8]⟩], c.inAddressSpace = false := by decide

/-- Both clauses, the first with an unstorable byte just before the image, the second with the image's second
section failing at its first byte and at its last, under the page granularity too. -/
theorem witness_BootLoadsTheSections :
    ((∀ c ∈ [imageFront, imageData] ++ imageText :: [], c.wellFormed = true) ∧ imageText.name = textName ∧
      (∀ c ∈ ([] : List Section), c.name ≠ textName) ∧
      (∀ c ∈ [imageFront, imageData] ++ imageText :: [], ∀ x, covers c x → x ∉ [0x003FFFFF]) ∧
      (∀ c ∈ [imageFront, imageData] ++ imageText :: [], ¬ covers c 0x00400002) ∧
      ([imageFront, imageData] ++ imageText :: [] = [imageFront] ++ imageData :: [imageText] ∧
        covers imageData 0x00400001 ∧ ∀ c ∈ [imageText], ¬ covers c 0x00400001) ∧
      ([imageFront, imageData] ++ imageText :: [] = [imageFront, imageData] ++ imageText :: [] ∧
        covers imageText 0xFFFFFFFF)) ∧
    ((∀ c ∈ [imageFront] ++ imageText :: [imageData], c.wellFormed = true) ∧
      (∃ c ∈ [imageFront] ++ imageText :: [imageData], c.name = textName) ∧
      (∀ c ∈ [imageFront], ∀ x, covers c x → x ∉ [0xFFFFFFFF]) ∧
      0 < imageText.size ∧ imageText.start + 0 ∈ [0xFFFFFFFF] ∧
      ∀ x, ((∃ c ∈ [imageFront], covers c x) ∨ (imageText.start ≤ x ∧ x < imageText.start + 0)) →
        sameChunk x (imageText.start + 0) = false) ∧
    ((∀ x, imageFront.start ≤ x → x < imageFront.start + 1 → x ∉ [0x00400001]) ∧ 1 < imageFront.size ∧
      imageFront.start + 1 ∈ [0x00400001]) := by
  simp only [covers, imageFront, imageData, imageText, List.mem_cons, List.not_mem_nil, or_false,
    List.cons_append, List.nil_append, forall_eq_or_imp, forall_eq, exists_eq_or_imp, exists_eq_left]
  refine ⟨⟨by decide, trivial, by simp, ?_, by decide, ⟨trivial, by decide, by decide⟩, trivial, by decide⟩,
    ⟨by decide, .inl trivial, fun x h1 h2 => by omega, by decide, trivial, fun x h => ?_⟩,
    fun x h1 h2 h3 => by omega, by decide, trivial⟩
  · exact ⟨fun x h h2 => by omega, fun x h h2 => by omega, fun x h h2 => by omega⟩
  · have : x = 0x00400000 ∨ x = 0x00400001 := by omega
    rcases this with rfl | rfl <;> decide

theorem witness_SlotWrite :
    (33 ≠ 0 ∧ 33 < 34 ∧ (State.reset.invalidate 33).isPending 33 = true) ∧
    (1 ≠ 0 ∧ 1 < 34 ∧ State.reset.isPending 1 = false) := by decide

theorem witness_SlotInvalidate : (33 ≠ 0 ∧ 33 < 34) ∧ 1 ≠ 0 ∧ 1 < 34 := by decide

theorem witness_WriteThenReadReturnsTheValue :
    (∃ t, memWrite State.reset 0xFFFFFFFF 1 0x1FF = .ok t) ∧
    (∃ t, memWrite State.reset 0x10010FFE 4 0xA5A51234 = .ok t) ∧ 3 + 1 ≤ 4 :=
  ⟨⟨_, rfl⟩, ⟨_, rfl⟩, by decide⟩

/-- A run whose environment cannot store the byte at 0x10, under the page granularity. -/
def pageState : State :=
  State.resetWith { Params.atReset with unstorable := [0x10], mapGranularity := .page } targetAtReset []

theorem storable_pageState (a n : Nat) (h : ¬ (a ≤ 0x10 ∧ 0x10 < a + n)) : Storable pageState a n := by
  intro x h1 h2 h3
  have : x = 0x10 := by simpa [pageState, State.resetWith] using h3
  omega

/-- The ends of the clauses: past the address space, the last four bytes, the first unstorable byte as the first,
a middle and the last byte of the access, and a chunk of the page granularity that is touched, or not. -/
theorem witness_WriteStoresItsBytesOnly :
    (0 < 2 ∧ 0xFFFFFFFF < 2 ^ 32 ∧ 2 ^ 32 < 0xFFFFFFFF + 2) ∧
    (0xFFFFFFFC + 4 ≤ 2 ^ 32 ∧ Storable pageState 0xFFFFFFFC 4) ∧
    (∀ a ∈ [0x0D, 0x0E, 0x10], FirstUnstorable pageState a 4 0x10) ∧
    (pageState.params.mapGranularity = .page ∧ pageState.byteAt 0xFFFFFFFB = none ∧
      sameChunk 0xFFFFFFFC 0xFFFFFFFB = true) ∧
    (pageState.byteAt 0 = none ∧ ∀ y, 0xFFFFFFFC ≤ y → y < 0xFFFFFFFC + 4 → sameChunk y 0 = false) := by
  refine ⟨by decide, ⟨by decide, storable_pageState _ _ (by omega)⟩, ?_, ⟨rfl, rfl, by decide⟩, rfl, ?_⟩
  · intro a ha
    simp only [List.mem_cons, List.not_mem_nil, or_false] at ha
    exact ⟨by omega, by omega, rfl, List.mem_singleton.mpr rfl, storable_pageState _ _ (by omega)⟩
  · intro y h1 h2
    have : y = 0xFFFFFFFC ∨ y = 0xFFFFFFFD ∨ y = 0xFFFFFFFE ∨ y = 0xFFFFFFFF := by omega
    rcases this with rfl | rfl | rfl | rfl <;> decide

theorem witness_StepKeepsMemoryCanonical :
    Memory.wf p1At2.mem = true ∧ ∃ t, step p1At2 = .next t := by
  refine ⟨by decide +kernel, ?_⟩
  obtain ⟨t, h, -⟩ := next_safe (step p1At2) (by decide +kernel)
  exact ⟨t, h⟩

theorem witness_IssueReadsSourcesAndMarksDestinations :
    ∀ i ∈ [Instr.div 31 8, .jalr 31 31], i.wellFormed = true ∧
      AtDecode (decoding wawParams i) ⟨encode i, 0x00400000#32⟩ ∧
      (decoding wawParams i).isPending i.src1 = false ∧ (decoding wawParams i).isPending i.src2 = false ∧
      ((decoding wawParams i).isPending i.dst = false ∧ (decoding wawParams i).isPending i.dst2 = false) ∧
      (decoding wawParams i).isWritten i.src1 = true ∧ (decoding wawParams i).isWritten i.src2 = true := by
  unfold AtDecode
  decide

/-- The decode handler holding `add $t2, $t1, $t0` while slot `k` is pending. -/
def stalling (p : Params) (k : Nat) : State := (decoding p (.add 10 9 8)).invalidate k

theorem witness_PendingOperandStallsDecode :
    (AtDecode (stalling Params.atReset 9) ⟨encode (.add 10 9 8), 0x00400000#32⟩ ∧
      (stalling Params.atReset 9).isPending (Instr.add 10 9 8).src1 = true) ∧
    (stalling Params.atReset 8).isPending (Instr.add 10 9 8).src2 = true ∧
    ((stalling wawParams 10).params.wawInterlock = true ∧
      (stalling wawParams 10).isPending (Instr.add 10 9 8).dst = true) := by
  unfold AtDecode
  decide

/-- Parameters under which only slot 9 is written. -/
def oneWritten : Params := { Params.specDefault with rfInit := [(9, 4#32)] }

theorem witness_UnwrittenSourceIsFatal :
    (AtDecode (decoding Params.specDefault (.mfhi 8)) ⟨encode (.mfhi 8), 0x00400000#32⟩ ∧
      (decoding Params.specDefault (.mfhi 8)).isPending 32 = false ∧
      (decoding Params.specDefault (.mfhi 8)).params.wawInterlock = false ∧
      (decoding Params.specDefault (.mfhi 8)).isWritten (Instr.mfhi 8).src1 = false) ∧
    ((decoding oneWritten (.add 10 9 8)).isWritten (Instr.add 10 9 8).src1 = true ∧
      (decoding oneWritten (.add 10 9 8)).isWritten (Instr.add 10 9 8).src2 = false) := by
  unfold AtDecode
  decide

/-- A state whose decode stage is given a word without a row. -/
def badWord : State :=
  { State.reset with f2d := { out := some ⟨0xFFFFFFFF#32, 0x00400000#32⟩, written := none } }

theorem witness_DecodeFailureIsFatal :
    badWord.e2d.readStall badWord.params.stallLatency ≠ some true ∧
    badWord.decodeInput = some ⟨0xFFFFFFFF#32, 0x00400000#32⟩ ∧
    decodeWord 0xFFFFFFFF#32 = .error (.noOpcodeRow 0x3F) := by decide

theorem witness_RetirementWritesDestinations :
    ∀ i ∈ [Instr.mult 8 9, .jalr 31 8, .sw 8 0#16 9], i.wellFormed = true ∧
      AtWriteback { retiring (recordAt i 0#32 0#32 0#32) with stage := .writeback } (recordAt i 0#32 0#32 0#32) ∧
      (i.dst = 0 ∨ (retiring (recordAt i 0#32 0#32 0#32)).isPending i.dst = true) ∧
      (i.dst2 = 0 ∨ (retiring (recordAt i 0#32 0#32 0#32)).isPending i.dst2 = true) := by
  unfold AtWriteback
  decide

/-- `mult` at writeback with LO pending and HI not. -/
def halfPending : State :=
  { State.reset.invalidate 33 with m2w := { out := some (recordAt (.mult 8 9) 0#32 0#32 0#32), written := none } }

theorem witness_UnpendingWriteIsFatal :
    (AtWriteback halfPending (recordAt (.mult 8 9) 0#32 0#32 0#32) ∧
      halfPending.isPending (Instr.mult 8 9).dst = true ∧ (Instr.mult 8 9).dst2 ≠ 0 ∧
      halfPending.isPending (Instr.mult 8 9).dst2 = false) ∧
    ((Instr.mthi 8).dst ≠ 0 ∧ halfPending.isPending (Instr.mthi 8).dst = false) := by
  unfold AtWriteback
  decide

/-- The execute handler holding `i` (every execute statement's hypothesis), with a result and with a Fatal. -/
theorem witness_ExecuteStageFrame :
    AtExecute (executing Params.specDefault (.div 8 9) 0#32 7#32 2#32) (recordAt (.div 8 9) 0#32 7#32 2#32) ∧
    (∃ t, exec (.div 8 9) (executing Params.specDefault (.div 8 9) 0#32 7#32 2#32) = .next t) ∧
    ∃ t, exec (.div 8 9) (executing Params.specDefault (.div 8 9) 0#32 7#32 0#32) = .next t :=
  ⟨⟨rfl, rfl⟩, ⟨_, rfl⟩, ⟨_, rfl⟩⟩

/-- `AtExecute` is met for every instruction, parameter setting and operand pair. -/
theorem witness_AtExecute (p : Params) (i : Instr) (pc v1 v2 : Word) :
    AtExecute (executing p i pc v1 v2) (recordAt i pc v1 v2) := ⟨rfl, rfl⟩

/-- The ends of the signed range for `add`, `sub` and `addi`, inside and outside. -/
theorem witness_CheckedArithmetic :
    (-2 ^ 31 ≤ (0x7FFFFFFF#32).toInt + (0#32).toInt ∧ (0x7FFFFFFF#32).toInt + (0#32).toInt < 2 ^ 31) ∧
    ¬ (-2 ^ 31 ≤ (0x7FFFFFFF#32).toInt + (1#32).toInt ∧ (0x7FFFFFFF#32).toInt + (1#32).toInt < 2 ^ 31) ∧
    ¬ (-2 ^ 31 ≤ (0x80000000#32).toInt - (1#32).toInt ∧ (0x80000000#32).toInt - (1#32).toInt < 2 ^ 31) ∧
    ¬ (-2 ^ 31 ≤ (0x80000000#32).toInt + (0xFFFF#16).toInt ∧
      (0x80000000#32).toInt + (0xFFFF#16).toInt < 2 ^ 31) ∧
    (executing altParams (.add 8 9 10) 0#32 0#32 0#32).params.overflowMode = .wrap ∧
    (executing Params.specDefault (.add 8 9 10) 0#32 0#32 0#32).params.overflowMode = .fatal := by decide

theorem witness_DivideCompletes :
    ((1#32).toInt ≠ 0 ∧ ¬ ((0x80000000#32).toInt = -2 ^ 31 ∧ (1#32).toInt = -1)) ∧
    ((0xFFFFFFFF#32).toInt ≠ 0 ∧ ¬ ((0x80000001#32).toInt = -2 ^ 31 ∧ (0xFFFFFFFF#32).toInt = -1)) ∧
    (1#32).toNat ≠ 0 := by decide

theorem witness_DivideTraps :
    (recordAt (.div 8 9) 0#32 5#32 0#32).v2 = 0#32 ∧
    ((recordAt (.div 8 9) 0#32 0x80000000#32 0xFFFFFFFF#32).v1 = 0x80000000#32 ∧
      (recordAt (.div 8 9) 0#32 0x80000000#32 0xFFFFFFFF#32).v2 = 0xFFFFFFFF#32) := by decide

/-- A record at the memory stage. -/
def accessRecord (i : Instr) (addr : Word) (width : Nat) : InstrRecord :=
  { recordAt i 0#32 0#32 0x12345678#32 with addr := addr, width := width }

/-- The last four bytes of the address space. -/
def topBytes : Memory :=
  [(0xFFFFFFFC, 1#8), (0xFFFFFFFD, 2#8), (0xFFFFFFFE, 3#8), (0xFFFFFFFF, 4#8)]

theorem witness_LoadsComplete :
    AtMemory (inMemory topBytes (accessRecord (.lw 8 0#16 9) 0xFFFFFFFC#32 4))
      (accessRecord (.lw 8 0#16 9) 0xFFFFFFFC#32 4) ∧
    (accessRecord (.lw 8 0#16 9) 0xFFFFFFFC#32 4).addr.toNat + 4 ≤ 2 ^ 32 ∧
    (∀ r, (inMemory topBytes r).byteAt 0xFFFFFFFC = some 1#8 ∧ (inMemory topBytes r).byteAt 0xFFFFFFFD = some 2#8 ∧
      (inMemory topBytes r).byteAt 0xFFFFFFFE = some 3#8 ∧ (inMemory topBytes r).byteAt 0xFFFFFFFF = some 4#8) ∧
    (accessRecord (.lh 8 0#16 9) 0xFFFFFFFE#32 2).addr.toNat + 2 ≤ 2 ^ 32 ∧
    (accessRecord (.lb 8 0#16 9) 0xFFFFFFFF#32 1).width = 1 :=
  ⟨⟨rfl, rfl⟩, by decide, fun _ => ⟨rfl, rfl, rfl, rfl⟩, by decide, rfl⟩

theorem witness_LoadsTrap :
    AtMemory (inMemory topBytes (accessRecord (.lw 8 0#16 9) 0xFFFFFFFD#32 4))
      (accessRecord (.lw 8 0#16 9) 0xFFFFFFFD#32 4) ∧
    memRead (inMemory topBytes (accessRecord (.lw 8 0#16 9) 0xFFFFFFFD#32 4)) .unmappedLoad 0xFFFFFFFD 4 =
      .error ⟨.addressOutOfRange, .address 0x100000000⟩ ∧
    memRead (inMemory [] (accessRecord (.lb 8 0#16 9) 0#32 1)) .unmappedLoad 0 1 =
      .error ⟨.unmappedLoad, .address 0⟩ :=
  ⟨⟨rfl, rfl⟩, rfl, rfl⟩

/-- The memory handler holding `r` in a run that cannot store the byte at 0x10. -/
def withoutStorage (r : InstrRecord) : State :=
  { pageState with stage := .memory, e2m := { out := some r, written := none } }

/-- The last four bytes of the address space, and the byte before the one that cannot be stored. -/
theorem witness_StoresComplete :
    (AtMemory (withoutStorage (accessRecord (.sw 8 0#16 9) 0xFFFFFFFC#32 4))
        (accessRecord (.sw 8 0#16 9) 0xFFFFFFFC#32 4) ∧
      Storable (withoutStorage (accessRecord (.sw 8 0#16 9) 0xFFFFFFFC#32 4)) 0xFFFFFFFC 4 ∧
      (accessRecord (.sw 8 0#16 9) 0xFFFFFFFC#32 4).addr.toNat + 4 ≤ 2 ^ 32) ∧
    Storable (withoutStorage (accessRecord (.sb 8 0#16 9) 0xF#32 1)) 0xF 1 :=
  ⟨⟨⟨rfl, rfl⟩, storable_pageState _ _ (by omega), by decide⟩, storable_pageState _ _ (by omega)⟩

theorem witness_StoresTrap :
    (AtMemory (inMemory [] (accessRecord (.sw 8 0#16 9) 0xFFFFFFFD#32 4))
        (accessRecord (.sw 8 0#16 9) 0xFFFFFFFD#32 4) ∧
      2 ^ 32 < (accessRecord (.sw 8 0#16 9) 0xFFFFFFFD#32 4).addr.toNat + 4) ∧
    (AtMemory (withoutStorage (accessRecord (.sh 8 0#16 9) 0xF#32 2)) (accessRecord (.sh 8 0#16 9) 0xF#32 2) ∧
      (accessRecord (.sh 8 0#16 9) 0xF#32 2).addr.toNat + 2 ≤ 2 ^ 32 ∧
      FirstUnstorable (withoutStorage (accessRecord (.sh 8 0#16 9) 0xF#32 2)) 0xF 2 0x10) :=
  ⟨⟨⟨rfl, rfl⟩, by decide⟩, ⟨rfl, rfl⟩, by decide, by omega, by omega, rfl, List.mem_singleton.mpr rfl,
    storable_pageState _ _ (by omega)⟩

theorem witness_NonMemoryInstructionsPass :
    (Instr.jal 0#26).isLoad = false ∧ (Instr.jal 0#26).isStore = false ∧
    AtMemory (inMemory [] (recordAt (.jal 0#26) 0#32 0#32 0#32)) (recordAt (.jal 0#26) 0#32 0#32 0#32) :=
  ⟨rfl, rfl, rfl, rfl⟩

/-- A load and a store in the memory stage, each with a next state. -/
theorem witness_MemoryStageFrame :
    (∃ t, exec (.lw 8 0#16 9) (inMemory topBytes (accessRecord (.lw 8 0#16 9) 0xFFFFFFFC#32 4)) = .next t) ∧
    ∃ t, exec (.sw 8 0#16 9) (inMemory [] (accessRecord (.sw 8 0#16 9) 0xFFFFFFFC#32 4)) = .next t :=
  ⟨⟨_, rfl⟩, ⟨_, rfl⟩⟩

theorem witness_SystemInstructions :
    (executing Params.specDefault .syscall 0#32 0#32 0#32).params.sysMode = .fatal ∧
    (executing altParams .trap 0#32 0#32 0#32).params.sysMode = .nop := by decide

theorem witness_RaiseSetsTheRecordOnce :
    State.reset.fatal = none ∧
    (State.reset.raise ⟨.systemInstruction, .instr 0#32 "trap"⟩).fatal.isSome = true := by decide

theorem witness_EndedRunStaysAsItIs :
    (State.reset.raise ⟨.divideByZero, .instr 0#32 "div"⟩).fatal.isSome = true ∧
    ¬ (State.resetWith Params.specDefault 0#64 []).retired.toNat <
      (State.resetWith Params.specDefault 0#64 []).target.toNat := by decide

theorem witness_StepRunsTheDecodedInstruction :
    p1At4.isRunning = true ∧ ∃ a, writebackStage (startCycle p1At4) = .next a ∧ a.fatal = none ∧
      a.e2d.readStall a.params.stallLatency ≠ some true ∧
      a.decodeInput = some ⟨0x01295020#32, 0x00400004#32⟩ ∧ decodeWord 0x01295020#32 = .ok (.add 10 9 9) := by
  refine ⟨by decide +kernel, ?_⟩
  obtain ⟨a, h1, h2⟩ := exists_of_nextSat (writebackStage (startCycle p1At4))
    (fun a => decide (a.fatal = none ∧ a.e2d.readStall a.params.stallLatency ≠ some true ∧
      a.decodeInput = some ⟨0x01295020#32, 0x00400004#32⟩)) (by decide +kernel)
  have h2 := of_decide_eq_true h2
  exact ⟨a, h1, h2.1, h2.2.1, h2.2.2, by decide⟩

theorem witness_HandlersRunTheirInstruction :
    threeInFlight.m2w.out.isSome = true ∧ threeInFlight.d2e.out.isSome = true ∧
    threeInFlight.e2m.out.isSome = true ∧
    threeInFlight.m2e.readStall threeInFlight.params.stallLatency ≠ some true ∧
    threeInFlight.w2m.readStall threeInFlight.params.stallLatency ≠ some true := by decide

/-- Both latencies of the stall ports. -/
theorem witness_EndOfCycleUpdatesThePorts :
    State.reset.params.stallLatency = .one ∧
    (State.resetWith { altParams with stallLatency := .zero } 1#64 []).params.stallLatency = .zero := by decide

/-- The state of `withFetchWord` after reset may start a cycle, and its word decodes (log 8). -/
theorem test_placed_word_can_run :
    State.reset.isRunning = true ∧ State.reset.m2w.out = none ∧
    State.reset.e2d.readStall State.reset.params.stallLatency ≠ some true ∧
    decodeTableWord 32 0x0000000C = some .syscall := by decide

theorem witness_FetchStageReadsTheWordAtPc :
    FetchIsStalled p1At4 ∧
    FetchIsStalled { State.resetWith { Params.specDefault with stallLatency := .zero } 1#64 [] with
      d2f := { out := none, written := some true } } ∧
    ¬ FetchIsStalled { State.resetWith { Params.specDefault with stallLatency := .zero } 1#64 [] with
      d2f := { out := some true, written := none } } ∧
    jumpIssued.pcValid = false ∧
    (¬ FetchIsStalled State.reset ∧ State.reset.pcValid = true ∧
      memRead State.reset .unmappedFetch State.reset.pc.toNat 4 =
        .error ⟨.unmappedFetch, .address 0x00400000⟩) ∧
    (p1At2.pc.toNat + 4 ≤ 2 ^ 32 ∧ p1At2.byteAt 0x00400004 = some 0x20#8 ∧
      p1At2.byteAt 0x00400005 = some 0x50#8 ∧ p1At2.byteAt 0x00400006 = some 0x29#8 ∧
      p1At2.byteAt 0x00400007 = some 0x01#8) := by
  unfold FetchIsStalled
  decide +kernel

theorem witness_FatalStopsTheCycle :
    State.reset.fatal = none ∧ ∃ t, step State.reset = .next t ∧
      t.fatal = some ⟨.unmappedFetch, .address 0x00400000, 0#64, .fetch⟩ := by
  refine ⟨rfl, ?_⟩
  obtain ⟨t, h1, h2⟩ := exists_of_nextSat (step State.reset)
    (fun t => decide (t.fatal = some ⟨.unmappedFetch, .address 0x00400000, 0#64, .fetch⟩)) (by decide +kernel)
  exact ⟨t, h1, of_decide_eq_true h2⟩

/-- A step that retires an instruction (also for StepKeepsParameters). -/
theorem witness_StepRetiresAtMostOne :
    p1At4.retired.toNat ≤ p1At4.target.toNat ∧ ∃ t, step p1At4 = .next t ∧ t.retired = 1#64 := by
  refine ⟨by decide +kernel, ?_⟩
  obtain ⟨t, h1, h2⟩ := exists_of_nextSat (step p1At4) (fun t => decide (t.retired = 1#64)) (by decide +kernel)
  exact ⟨t, h1, of_decide_eq_true h2⟩

theorem witness_ResetHasTheInvariant : Memory.wf p1Bytes = true := by decide +kernel

/-- A state in the middle of a run has the invariant, and a step of it has no Fatal. -/
theorem witness_StepKeepsTheInvariant : p1At2.Inv ∧ ∃ t, step p1At2 = .next t ∧ t.isSafe := by
  refine ⟨⟨by decide +kernel, by decide +kernel, fun _ => engineInv_of_check _ (by decide +kernel)⟩, ?_⟩
  exact next_safe _ (by decide +kernel)

theorem witness_FetchSeesEarlierStoresOnly :
    EngineInv p1At2 ∧ p1At2.isRunning = true ∧ ∃ t, step p1At2 = .next t ∧ t.isSafe ∧
      t.f2d.out = some ⟨0x01295020#32, 0x00400004#32⟩ := by
  refine ⟨engineInv_of_check _ (by decide +kernel), by decide +kernel, ?_⟩
  obtain ⟨t, h1, h2⟩ := exists_of_nextSat (step p1At2)
    (fun t => decide (t.fatal = none ∧ t.f2d.out = some ⟨0x01295020#32, 0x00400004#32⟩)) (by decide +kernel)
  have h2 := of_decide_eq_true h2
  exact ⟨t, h1, h2.1, h2.2⟩

/-- Every stage full; and, in `p1At2`, with E2M and M2W empty, in `p1At4` with D2E empty. -/
theorem witness_InFlightInstructionsAdvance :
    (EngineInv threeInFlight ∧ threeInFlight.isRunning = true ∧ ∃ t, step threeInFlight = .next t ∧ t.isSafe) ∧
    (threeInFlight.d2e.out.isSome = true ∧ threeInFlight.e2m.out.isSome = true ∧
      threeInFlight.m2w.out.isSome = true) ∧
    (p1At2.e2m.out = none ∧ p1At2.m2w.out = none ∧ p1At4.d2e.out = none) :=
  ⟨⟨engineInv_of_check _ (by decide +kernel), by decide +kernel, next_safe _ (by decide +kernel)⟩,
    by decide +kernel, by decide +kernel⟩

theorem witness_IssuedInstructionRetiresInThreeCycles :
    EngineInv p1At2 ∧ p1At2.isSafe ∧ p1At2.retired.toNat + 2 < p1At2.target.toNat ∧
    p1At2.d2e.out = some (recordAt (.addi 9 0 5#16) 0x00400000#32 0#32 0#32) ∧
    (∃ t, Host.Core.run Sys2Proof.core 3 p1At2 = .next t ∧ t.isSafe) ∧
    ((Instr.addi 9 0 5#16).dst ≠ 0 ∧ (Instr.addi 9 0 5#16).dst < 34 ∧
      (Instr.addi 9 0 5#16).dst ≠ (Instr.addi 9 0 5#16).dst2) :=
  ⟨engineInv_of_check _ (by decide +kernel), rfl, by decide +kernel, rfl, next_safe _ (by decide +kernel),
    by decide⟩

theorem witness_JumpTargetIsFetchedAtItsWriteback :
    EngineInv v5Cycle4 ∧ v5Cycle4.isRunning = true ∧ v5Cycle4.m2w.out.any (fun r => r.op.isJump) = true ∧
    ∃ t, step v5Cycle4 = .next t ∧ t.isSafe :=
  ⟨engineInv_of_check _ (by decide +kernel), by decide +kernel, by decide, next_safe _ (by decide +kernel)⟩

theorem witness_JumpBlocksFetchUntilItRetires :
    EngineInv jumpIssued ∧ jumpIssued.isRunning = true ∧ jumpIssued.jumpInFlight ∧
    jumpIssued.m2w.out = none ∧ ∃ t, step jumpIssued = .next t ∧ t.isSafe :=
  ⟨engineInv_of_check _ (by decide +kernel), by decide +kernel, ⟨_, List.mem_singleton.mpr rfl, rfl⟩, rfl,
    next_safe _ (by decide +kernel)⟩

theorem witness_HeldInstructionIssuesWithinThreeCycles :
    EngineInv p1At4 ∧ p1At4.isSafe ∧ p1At4.retired.toNat + 2 < p1At4.target.toNat ∧
    p1At4.hold = some ⟨0x01295020#32, 0x00400004#32⟩ ∧
    ∃ t, Host.Core.run Sys2Proof.core 3 p1At4 = .next t ∧ t.isSafe :=
  ⟨engineInv_of_check _ (by decide +kernel), rfl, by decide +kernel, rfl, next_safe _ (by decide +kernel)⟩

end Sys2Proof.Tests
end

/-! # The register file and the reset state (spec 10_state.md)

First what `setSlot` and `invalidate` do to each reading of the register file and what they leave, then which
bytes are mapped, then the slots and the pipeline of `State.resetWith`, then the statements of this family. -/

namespace Sys2Proof.Machine

/-! ### Writing and invalidating a slot -/

theorem setSlot_zero (s : State) (v : Word) : s.setSlot 0 v = s := by
  simp [State.setSlot]

theorem invalidate_zero (s : State) : s.invalidate 0 = s := by
  simp [State.invalidate]

theorem setSlot_readSlot (s : State) (i j : Nat) (v : Word) :
    (s.setSlot i v).readSlot j = if i = j ∧ i ≠ 0 ∧ i < 34 then v else s.readSlot j := by
  by_cases hj : j = 0
  · have hslot : ¬(i = j ∧ i ≠ 0 ∧ i < 34) := by omega
    simp only [State.readSlot, if_pos hj, if_neg hslot]
  · simp only [State.readSlot, if_neg hj, setSlot_slot]
    split <;> rfl

theorem setSlot_isWritten (s : State) (i j : Nat) (v : Word) :
    (s.setSlot i v).isWritten j = if i = j ∧ i ≠ 0 ∧ i < 34 then true else s.isWritten j := by
  by_cases hj : j = 0
  · have hslot : ¬(i = j ∧ i ≠ 0 ∧ i < 34) := by omega
    simp only [State.isWritten, if_pos hj, if_neg hslot]
  · simp only [State.isWritten, if_neg hj, setSlot_slot]
    split <;> rfl

/-- A write to a slot leaves the other slots (10 R25). -/
theorem setSlot_sameSlot (s : State) {i j : Nat} (v : Word) (h : j ≠ i) :
    SameSlot s (s.setSlot i v) j := by
  have hslot : ¬(i = j ∧ i ≠ 0 ∧ i < 34) := fun hij => h hij.1.symm
  refine ⟨?_, ?_, ?_⟩
  · rw [setSlot_readSlot, if_neg hslot]
  · rw [setSlot_isWritten, if_neg hslot]
  · rw [setSlot_isPending, if_neg h.symm]

/-- Invalidating a slot leaves the other slots (10 R24). -/
theorem invalidate_sameSlot (s : State) {i j : Nat} (h : j ≠ i) : SameSlot s (s.invalidate i) j := by
  have hslot : ¬(i = j ∧ i ≠ 0 ∧ i < 34) := fun hij => h hij.1.symm
  refine ⟨invalidate_readSlot s i j, invalidate_isWritten s i j, ?_⟩
  rw [invalidate_isPending, if_neg hslot]

theorem setSlot_eq_with_rf (s : State) (i : Nat) (v : Word) :
    s.setSlot i v = { s with rf := (s.setSlot i v).rf } := by
  unfold State.setSlot
  split <;> rfl

theorem invalidate_eq_with_rf (s : State) (i : Nat) :
    s.invalidate i = { s with rf := (s.invalidate i).rf } := by
  unfold State.invalidate
  split <;> rfl

/-! ### Which bytes are mapped -/

/-- Under the byte granularity exactly the bytes that were written are mapped (20 R56). -/
theorem byteAt_of_byte_granularity (s : State) (h : s.params.mapGranularity = .byte) (a : Nat) :
    s.byteAt a = lookupByte s.mem a := by
  unfold State.byteAt
  cases lookupByte s.mem a <;> simp [h]

/-- With nothing written nothing is mapped, under either granularity (20 R56). -/
theorem byteAt_of_mem_nil (s : State) (h : s.mem = []) (a : Nat) : s.byteAt a = none := by
  cases hg : s.params.mapGranularity <;> simp [State.byteAt, h, hg, lookupByte, chunkMapped]

/-! ### The register file at reset -/

theorem slotAtReset_of_lookup_none {rfInit : List (Nat × Word)} {i : Nat} (h : rfInit.lookup i = none) :
    slotAtReset rfInit i = { value := 0#32, written := false, pending := false } := by
  simp [slotAtReset, h]

theorem slotAtReset_of_lookup_some {rfInit : List (Nat × Word)} {i : Nat} {v : Word}
    (h : rfInit.lookup i = some v) :
    slotAtReset rfInit i = { value := v, written := true, pending := false } := by
  simp [slotAtReset, h]

theorem slotAtReset_pending (rfInit : List (Nat × Word)) (i : Nat) :
    (slotAtReset rfInit i).pending = false := by
  cases h : rfInit.lookup i with
  | none => rw [slotAtReset_of_lookup_none h]
  | some v => rw [slotAtReset_of_lookup_some h]

section Reset

variable (p : Params) (n : Counter) (m : Memory)

theorem resetWith_slot {i : Nat} (h : i < 34) :
    (State.resetWith p n m).slot i = slotAtReset p.rfInit i := by
  simp [State.slot, State.resetWith, rfAtReset, List.getD_eq_getElem?_getD, h]

/-- No slot is pending at reset, RF_INIT or not (10 R43). -/
theorem resetWith_isPending (i : Nat) : (State.resetWith p n m).isPending i = false := by
  by_cases h : i < 34
  · simp [State.isPending, resetWith_slot p n m h, slotAtReset_pending]
  · exact isPending_of_ge _ i (Nat.le_of_not_lt h)

theorem resetWith_isWritten_of_lookup_none {i : Nat} (h0 : 0 < i) (h : i < 34)
    (hv : p.rfInit.lookup i = none) : (State.resetWith p n m).isWritten i = false := by
  simp [State.isWritten, Nat.ne_of_gt h0, resetWith_slot p n m h, slotAtReset_of_lookup_none hv]

theorem resetWith_isWritten_of_lookup_some {i : Nat} {v : Word} (h : i < 34)
    (hv : p.rfInit.lookup i = some v) : (State.resetWith p n m).isWritten i = true := by
  simp [State.isWritten, resetWith_slot p n m h, slotAtReset_of_lookup_some hv]

theorem resetWith_readSlot_of_lookup_some {i : Nat} {v : Word} (h0 : 0 < i) (h : i < 34)
    (hv : p.rfInit.lookup i = some v) : (State.resetWith p n m).readSlot i = v := by
  simp [State.readSlot, Nat.ne_of_gt h0, resetWith_slot p n m h, slotAtReset_of_lookup_some hv]

/-! ### The pipeline at reset -/

theorem resetWith_inFlight : (State.resetWith p n m).inFlight = [] := rfl

theorem resetWith_not_jumpInFlight : ¬ (State.resetWith p n m).jumpInFlight := by
  simp [State.jumpInFlight, resetWith_inFlight]

/-- The engine's invariant at reset: every port is empty, so nothing is in flight, held or fetched, and all that
is left is that the pc is valid and that no slot is pending. -/
theorem resetWith_engineInv : EngineInv (State.resetWith p n m) where
  stage := rfl
  dataPorts := ⟨rfl, rfl, rfl, rfl⟩
  d2fPort := rfl
  stallPorts := ⟨rfl, rfl, rfl⟩
  fetchAddress := ⟨nofun, nofun⟩
  pcValidity := ⟨nofun, fun hj => absurd hj (resetWith_not_jumpInFlight p n m)⟩
  jumpAlone hj := absurd hj (resetWith_not_jumpInFlight p n m)
  jumpYoungest := ⟨nofun, nofun⟩
  pendingInFlight i hi := by simp [resetWith_isPending] at hi
  recordsDecoded := nofun
  holdDecoded := nofun

end Reset

/-! ### The model's own reset state -/

theorem rfInitZero_lookup {i : Nat} (h : i < 34) : rfInitZero.lookup i = some 0#32 :=
  List.lookup_graph (fun _ => 0#32) (List.mem_range.mpr h)

theorem reset_isWritten {i : Nat} (h : i < 34) : State.reset.isWritten i = true :=
  resetWith_isWritten_of_lookup_some _ _ _ h (rfInitZero_lookup h)

theorem reset_readSlot {i : Nat} (h : i < 34) : State.reset.readSlot i = 0#32 := by
  rcases Nat.eq_zero_or_pos i with rfl | h0
  · rfl
  · exact resetWith_readSlot_of_lookup_some _ _ _ h0 h (rfInitZero_lookup h)

theorem reset_isRunning : State.reset.isRunning = true :=
  (isRunning_iff _).mpr ⟨rfl, by decide⟩

/-! ### The statements -/

/-- Settles O11: every reading of slot `j` after a write to `i` is one of the rules above, at `j = i` and at
`j ≠ i`. -/
theorem slotWrite : Obligations.SlotWrite := by
  intro s i v
  constructor
  · rintro rfl
    exact ⟨(writeCheck_eq_none s 0).mpr (.inl rfl), setSlot_zero s v⟩
  · intro h0 hi
    refine ⟨fun hp => ?fails, fun hp => ?passes, ?value, ?pending, ?written,
      fun j hj => setSlot_sameSlot s v hj, setSlot_eq_with_rf s i v⟩
    case fails => exact (writeCheck_eq_some s i _).mpr ⟨⟨h0, hp⟩, rfl⟩
    case passes => exact (writeCheck_eq_none s i).mpr (.inr hp)
    case value => rw [setSlot_readSlot, if_pos ⟨rfl, h0, hi⟩]
    case pending => rw [setSlot_isPending, if_pos rfl]
    case written => rw [setSlot_isWritten, if_pos ⟨rfl, h0, hi⟩]

/-- Settles O12. The pending bit that the slot had before plays no part, so a pending slot stays pending. -/
theorem slotInvalidate : Obligations.SlotInvalidate := by
  intro s i
  constructor
  · rintro rfl
    exact invalidate_zero s
  · intro h0 hi
    refine ⟨?pending, invalidate_readSlot s i i, invalidate_isWritten s i i,
      fun j hj => invalidate_sameSlot s hj, invalidate_eq_with_rf s i⟩
    case pending => rw [invalidate_isPending, if_pos ⟨rfl, h0, hi⟩]

/-- Settles O6: the register file and memory by the rules of reset above; each other row of 10 R43 is a field of
`State.resetWith`. -/
theorem resetValues : Obligations.ResetValues := by
  intro p n m
  refine ⟨rfl, resetWith_isPending p n m, fun i h0 hi => ⟨?unwritten, fun v hv => ⟨?written, ?value⟩⟩,
    rfl, rfl, rfl, rfl, rfl, rfl, rfl, rfl, rfl, rfl, rfl, rfl, rfl, rfl, rfl, rfl,
    byteAt_of_byte_granularity (State.resetWith p n m), byteAt_of_mem_nil (State.resetWith p n []) rfl, rfl⟩
  case unwritten => exact resetWith_isWritten_of_lookup_none p n m h0 hi
  case written => exact resetWith_isWritten_of_lookup_some p n m hi hv
  case value => exact resetWith_readSlot_of_lookup_some p n m h0 hi hv

/-- Settles O7: RF_INIT of the model's parameters lists every slot with the value 0 (log 4). -/
theorem modelResetState : Obligations.ModelResetState :=
  ⟨rfl, fun _ hi => ⟨reset_isWritten hi, reset_readSlot hi⟩, rfl, rfl, reset_isRunning⟩

/-- Settles O10: slot 0 is never looked up in the register file, and no operation on it changes the state. -/
theorem slotZeroIsHardwired : Obligations.SlotZeroIsHardwired := fun s v =>
  ⟨rfl, rfl, rfl, invalidate_zero s, setSlot_zero s v, (writeCheck_eq_none s 0).mpr (.inl rfl)⟩

/-- Settles O53: memory is canonical by hypothesis, no instruction has retired, and the engine's part is
`resetWith_engineInv`. -/
theorem resetHasTheInvariant : Obligations.ResetHasTheInvariant := fun p n m hm =>
  ⟨hm, Nat.zero_le _, fun _ => resetWith_engineInv p n m⟩

end Sys2Proof.Machine

/-! # Memory (spec 20_memory.md)

First what `memRead` and `memWrite` can answer and which bytes a write leaves, then what a handler, a cycle and
the loader do to memory, then the statements of this family. -/

namespace Sys2Proof.Machine

/-! ### Reading a byte after a write -/

/-- A byte is unmapped exactly when nothing wrote it and, under the page granularity, nothing wrote a byte of its
chunk (20 R51, R56). -/
theorem byteAt_eq_none_iff (s : State) (x : Nat) :
    s.byteAt x = none ↔
      lookupByte s.mem x = none ∧ (s.params.mapGranularity = .page → chunkMapped s.mem x = false) := by
  unfold State.byteAt
  cases lookupByte s.mem x <;> cases s.params.mapGranularity <;> simp

/-- A mapped byte is one that was written, or under the page granularity a free value in a chunk that a written
byte maps (20 R51, R56; log 9). -/
theorem byteAt_eq_some_iff (s : State) (x : Nat) (b : Byte) :
    s.byteAt x = some b ↔
      lookupByte s.mem x = some b ∨
        (lookupByte s.mem x = none ∧ s.params.mapGranularity = .page ∧ chunkMapped s.mem x = true ∧
          Config.chunkByte s.params.drawRun x = b) := by
  unfold State.byteAt
  cases lookupByte s.mem x <;> cases s.params.mapGranularity <;> simp

/-- A write maps the chunks it touches and no other (20 R56; log 10). -/
theorem chunkMapped_storeBytes (m : Memory) (a n v x : Nat) :
    chunkMapped (storeBytes m a n v) x = true ↔
      chunkMapped m x = true ∨ ∃ y, a ≤ y ∧ y < a + n ∧ sameChunk y x = true := by
  simp only [chunkMapped_iff_written, lookupByte_storeBytes]
  constructor
  · rintro ⟨y, hy, hxy⟩
    split at hy
    · next hin => exact .inr ⟨y, hin.1, hin.2, hxy⟩
    · exact .inl ⟨y, hy, hxy⟩
  · rintro (⟨y, hy, hxy⟩ | ⟨y, h1, h2, hxy⟩)
    · refine ⟨y, ?_, hxy⟩
      split
      · rfl
      · exact hy
    · exact ⟨y, by rw [if_pos ⟨h1, h2⟩]; rfl, hxy⟩

section Store

variable (s : State) (a n v : Nat)

/-- The bytes of a write, the lowest first (20 R54, R57). -/
theorem byteAt_storeBytes_inside {k : Nat} (hk : k < n) :
    ({ s with mem := storeBytes s.mem a n v } : State).byteAt (a + k) =
      some (BitVec.ofNat 8 (v / 256 ^ k)) := by
  rw [byteAt_eq_some_iff, lookupByte_storeBytes, if_pos ⟨Nat.le_add_right a k, Nat.add_lt_add_left hk a⟩,
    Nat.add_sub_cancel_left]
  exact .inl rfl

/-- What a write leaves of the other bytes, and the chunks it maps (20 R54, R56; log 9, log 10). -/
theorem storeBytes_sameBytesOutside :
    SameBytesOutside s { s with mem := storeBytes s.mem a n v } a n := by
  intro x hx
  have hlook : lookupByte (storeBytes s.mem a n v) x = lookupByte s.mem x := by
    rw [lookupByte_storeBytes, if_neg hx]
  refine ⟨fun hg => ?byte, fun b hb => ?mapped, fun hn hfar => ?untouched, fun hn hg hnear => ?touched⟩
  case byte =>
    rw [byteAt_of_byte_granularity s hg, byteAt_of_byte_granularity, hlook]
    exact hg
  case mapped =>
    rw [byteAt_eq_some_iff] at hb ⊢
    exact hb.imp hlook.trans fun ⟨hl, hg, hc, hfree⟩ =>
      ⟨hlook.trans hl, hg, (chunkMapped_storeBytes _ _ _ _ _).mpr (.inl hc), hfree⟩
  case untouched =>
    obtain ⟨hl, hc⟩ := (byteAt_eq_none_iff s x).mp hn
    refine (byteAt_eq_none_iff _ x).mpr ⟨hlook.trans hl, fun hg => ?_⟩
    rw [← Bool.not_eq_true, chunkMapped_storeBytes]
    rintro (hm | ⟨y, h1, h2, hxy⟩)
    · rw [hc hg] at hm
      cases hm
    · rw [hfar y h1 h2] at hxy
      cases hxy
  case touched =>
    obtain ⟨hl, -⟩ := (byteAt_eq_none_iff s x).mp hn
    exact (byteAt_eq_some_iff _ x _).mpr
      (.inr ⟨hlook.trans hl, hg, (chunkMapped_storeBytes _ _ _ _ _).mpr (.inr hnear), rfl⟩)

/-! ### What a write answers -/

/-- A range that starts inside the address space and runs past it fails at the first address after it (20 R54). -/
theorem rangeCheck_past_end (ha : a ≤ Config.addrSpace) (hn : Config.addrSpace < a + n) :
    rangeCheck a n = some ⟨.addressOutOfRange, .address Config.addrSpace⟩ := by
  induction n generalizing a with
  | zero => omega
  | succ n ih =>
    unfold rangeCheck
    split
    · next h => rw [Nat.le_antisymm ha h]
    · next h => exact ih (a + 1) (by omega) (by omega)

/-- The range check comes before the storage check (20 R54). -/
theorem memWrite_past_end (ha : a ≤ Config.addrSpace) (hn : Config.addrSpace < a + n) :
    memWrite s a n v = .error ⟨.addressOutOfRange, .address Config.addrSpace⟩ := by
  simp only [memWrite, rangeCheck_past_end a n ha hn]

theorem memWrite_of_firstUnstorable {x : Nat} (hn : a + n ≤ Config.addrSpace)
    (hx : FirstUnstorable s a n x) :
    memWrite s a n v = .error ⟨.allocationFailure, .address x⟩ := by
  simp only [memWrite, (rangeCheck_eq_none a n).mpr (.inr hn),
    (storageCheck_eq_some s a n _).mpr ⟨x, hx, rfl⟩]

theorem memWrite_of_storable (hn : a + n ≤ Config.addrSpace) (hs : Storable s a n) :
    memWrite s a n v = .ok { s with mem := storeBytes s.mem a n v } := by
  simp only [memWrite, (rangeCheck_eq_none a n).mpr (.inr hn), (storageCheck_eq_none s a n).mpr hs]

end Store

/-! ### What a read answers -/

section Read

variable (s : State) (c : Cause)

/-- The value of a byte and of the bytes above it, taken apart again. -/
theorem byte_add_rest_eq_iff (b : Byte) (rest v : Nat) :
    b.toNat + 256 * rest = v ↔ b = BitVec.ofNat 8 v ∧ rest = v / 256 := by
  have hb := b.isLt
  rw [← BitVec.toNat_inj, BitVec.toNat_ofNat]
  omega

/-- A read succeeds with `v` when its first byte is the low byte of `v` and the others give the rest (20 R53). -/
theorem memRead_succ_ok_iff (a n v : Nat) :
    memRead s c a (n + 1) = .ok v ↔
      (a < Config.addrSpace ∧ s.byteAt a = some (BitVec.ofNat 8 v)) ∧ memRead s c (a + 1) n = .ok (v / 256) := by
  rw [memRead]
  by_cases ha : Config.addrSpace ≤ a
  · simp [ha, Nat.not_lt.mpr ha]
  · cases s.byteAt a with
    | none => simp [ha]
    | some b =>
      cases memRead s c (a + 1) n with
      | error e => simp [ha]
      | ok rest => simp [ha, Nat.lt_of_not_le ha, byte_add_rest_eq_iff]

/-- A read fails at its first byte, out of range before unmapped, or after it (20 R53, 60 R273). -/
theorem memRead_succ_error_iff (a n : Nat) (stop : Stop) :
    memRead s c a (n + 1) = .error stop ↔
      ((Config.addrSpace ≤ a ∧ stop = ⟨.addressOutOfRange, .address a⟩) ∨
        (a < Config.addrSpace ∧ s.byteAt a = none ∧ stop = ⟨c, .address a⟩)) ∨
      (a < Config.addrSpace ∧ (s.byteAt a).isSome = true) ∧ memRead s c (a + 1) n = .error stop := by
  rw [memRead]
  by_cases ha : Config.addrSpace ≤ a
  · simp [ha, Nat.not_lt.mpr ha, @eq_comm _ stop]
  · cases s.byteAt a with
    | none => simp [ha, Nat.lt_of_not_le ha, @eq_comm _ stop]
    | some b => cases memRead s c (a + 1) n <;> simp [ha, Nat.lt_of_not_le ha]

/-- A read succeeds exactly when every byte is mapped, with the value those bytes make (20 R53, R57). -/
theorem memRead_ok_iff (a n v : Nat) :
    memRead s c a n = .ok v ↔
      v < 256 ^ n ∧
        ∀ k < n, a + k < Config.addrSpace ∧ s.byteAt (a + k) = some (BitVec.ofNat 8 (v / 256 ^ k)) := by
  induction n generalizing a v with
  | zero => simp [memRead, eq_comm]
  | succ n ih =>
    have hshift (k : Nat) : a + 1 + k = a + (k + 1) ∧ v / 256 / 256 ^ k = v / 256 ^ (k + 1) :=
      ⟨by omega, by rw [Nat.div_div_eq_div_mul, Nat.pow_succ']⟩
    have hlt : v / 256 < 256 ^ n ↔ v < 256 ^ (n + 1) := by
      rw [Nat.div_lt_iff_lt_mul (by decide), Nat.pow_succ]
    simp only [memRead_succ_ok_iff, ih, hshift, hlt, Nat.forall_lt_succ_left', Nat.add_zero, Nat.pow_zero,
      Nat.div_one]
    tauto

/-- A read fails exactly at its first bad byte (20 R53, 60 R273). -/
theorem memRead_error_iff (a n : Nat) (stop : Stop) :
    memRead s c a n = .error stop ↔
      ∃ k < n, (∀ j < k, a + j < Config.addrSpace ∧ (s.byteAt (a + j)).isSome = true) ∧
        ((Config.addrSpace ≤ a + k ∧ stop = ⟨.addressOutOfRange, .address (a + k)⟩) ∨
          (a + k < Config.addrSpace ∧ s.byteAt (a + k) = none ∧ stop = ⟨c, .address (a + k)⟩)) := by
  induction n generalizing a with
  | zero => simp [memRead]
  | succ n ih =>
    have hshift (k : Nat) : a + 1 + k = a + (k + 1) := by omega
    simp only [memRead_succ_error_iff, ih, hshift]
    constructor
    · rintro (hbad | ⟨h0, k, hk, hall, hbad⟩)
      · exact ⟨0, by omega, by omega, hbad⟩
      · exact ⟨k + 1, by omega, Nat.forall_lt_succ_left'.mpr ⟨h0, hall⟩, hbad⟩
    · rintro ⟨_ | k, hk, hall, hbad⟩
      · exact .inl hbad
      · obtain ⟨h0, hall⟩ := Nat.forall_lt_succ_left'.mp hall
        exact .inr ⟨h0, k, by omega, hall, hbad⟩

end Read

/-- Byte `j` of the `m` bytes of `v` from byte `k` on is byte `k + j` of `v`. -/
theorem byte_of_slice (v k m j : Nat) (hj : j < m) :
    BitVec.ofNat 8 (v / 256 ^ k % 256 ^ m / 256 ^ j) = BitVec.ofNat 8 (v / 256 ^ (k + j)) := by
  apply BitVec.eq_of_toNat_eq
  rw [BitVec.toNat_ofNat, BitVec.toNat_ofNat]
  have hm : 256 ^ m = 256 ^ j * 256 ^ (m - j) := by rw [← Nat.pow_add, Nat.add_sub_cancel' hj.le]
  have hdvd : 256 ∣ 256 ^ (m - j) := dvd_pow_self 256 (Nat.sub_ne_zero_of_lt hj)
  calc v / 256 ^ k % 256 ^ m / 256 ^ j % 256
      = v / 256 ^ k / 256 ^ j % 256 ^ (m - j) % 256 := by rw [hm, Nat.mod_mul_right_div_self]
    _ = v / 256 ^ k / 256 ^ j % 256 := Nat.mod_mod_of_dvd _ hdvd
    _ = v / 256 ^ (k + j) % 256 := by rw [Nat.div_div_eq_div_mul, Nat.pow_add]

/-- A read inside the range of a write gives the bytes that were written (20 R53, R54, R57). -/
theorem memRead_after_memWrite {s t : State} {a n v : Nat} (h : memWrite s a n v = .ok t) (c : Cause)
    {k m : Nat} (hkm : k + m ≤ n) : memRead t c (a + k) m = .ok (v / 256 ^ k % 256 ^ m) := by
  obtain ⟨rfl, hrange⟩ := memWrite_ok s t a n v h
  rw [memRead_ok_iff]
  refine ⟨Nat.mod_lt _ (by positivity), fun j hj => ⟨by omega, ?_⟩⟩
  rw [Nat.add_assoc, byteAt_storeBytes_inside s a n v (by omega), byte_of_slice v k m j hj]

/-! ### The canonical form of memory through a cycle (log 10) -/

/-- Whatever next state `f` answers, its memory is in canonical form when the memory before is. -/
def KeepsCanonical (f : State → Result) : Prop :=
  ∀ s t, f s = .next t → Memory.wf s.mem = true → Memory.wf t.mem = true

@[simp] theorem writebackPart_mem (i : Instr) (r : InstrRecord) (s : State) :
    (writebackPart i r s).mem = s.mem := by
  rcases writebackPart_cases i r s with ⟨stop, h⟩ | ⟨-, -, h⟩ <;> simp [h]

@[simp] theorem decodePart_mem (i : Instr) (f : Fetched) (s : State) : (decodePart i f s).mem = s.mem := by
  rcases decodePart_cases i f s with ⟨-, h⟩ | ⟨-, stop, h⟩ | ⟨-, -, -, h⟩ <;> simp [h]

@[simp] theorem executePart_mem (compute : ExecutePart) (r : InstrRecord) (s : State) :
    (executePart compute r s).mem = s.mem := by
  unfold executePart
  split <;> simp

/-- The memory stage is the only one that writes memory, and it writes through `memWrite` (40 R120). -/
theorem memoryPart_wf {access : MemoryPart} (ha : AccessShape access) (r : InstrRecord) (s : State)
    (hw : Memory.wf s.mem = true) : Memory.wf (memoryPart access r s).mem = true := by
  rcases memoryPart_cases access ha r s with ⟨stop, h⟩ | ⟨s', r', h, -, hs⟩
  · simpa [h] using hw
  · rw [h, toWriteback_mem]
    rcases hs with rfl | hs
    · exact hw
    · exact memWrite_wf _ _ _ _ _ hs hw

theorem perform_keepsCanonical (i : Instr) (compute : ExecutePart) {access : MemoryPart}
    (ha : AccessShape access) : KeepsCanonical (perform i compute access) := by
  intro s t h hw
  unfold perform at h
  cases hs : s.stage <;> simp only [hs] at h
  case writeback => split at h <;> (cases h; simpa using hw)
  case decode => split at h <;> (cases h; simpa using hw)
  case fetch => cases h; exact hw
  case execute => split at h <;> (cases h; simpa using hw)
  case memory =>
    split at h
    · cases h; exact memoryPart_wf ha _ s hw
    · cases h; simpa using hw
  case loader => cases h; exact hw

theorem exec_keepsCanonical (i : Instr) : KeepsCanonical (exec i) := by
  intro s t h
  obtain ⟨compute, access, he, -, ha⟩ := exec_eq_perform i s
  exact perform_keepsCanonical i compute ha s t (he.symm.trans h)

theorem writebackStage_keepsCanonical : KeepsCanonical writebackStage := by
  intro s t h hw
  unfold writebackStage at h
  dsimp only at h
  split at h
  · exact exec_keepsCanonical _ _ _ h hw
  · cases h; simpa using hw

theorem decodeStage_keepsCanonical : KeepsCanonical decodeStage := by
  intro s t h hw
  unfold decodeStage at h
  dsimp only at h
  split at h
  · cases h; simpa using hw
  · split at h
    · cases h; simpa using hw
    · split at h
      · cases h; simpa using hw
      · exact exec_keepsCanonical _ _ _ h hw

theorem fetchStage_keepsCanonical : KeepsCanonical fetchStage := by
  intro s t h hw
  rcases fetchStage_cases s with ⟨-, he⟩ | ⟨stop, he⟩ | ⟨-, v, -, he⟩ <;>
    (rw [he] at h; cases h; simpa using hw)

theorem executeStage_keepsCanonical : KeepsCanonical executeStage := by
  intro s t h hw
  unfold executeStage at h
  dsimp only at h
  split at h
  · cases h; simpa using hw
  · split at h
    · cases h; simpa using hw
    · exact exec_keepsCanonical _ _ _ h hw

theorem memoryStage_keepsCanonical : KeepsCanonical memoryStage := by
  intro s t h hw
  unfold memoryStage at h
  dsimp only at h
  split at h
  · cases h; simpa using hw
  · split at h
    · cases h; simpa using hw
    · exact exec_keepsCanonical _ _ _ h hw

/-- Handlers that keep the canonical form keep it one after the other, whether or not the cycle stops between
them (40 R130). -/
theorem KeepsCanonical.chain {f g : State → Result} (hf : KeepsCanonical f) (hg : KeepsCanonical g) :
    KeepsCanonical fun s => chain (f s) g := by
  intro s t h hw
  rcases (chain_next _ _ _).mp h with ⟨hft, -⟩ | ⟨u, hfu, -, hgt⟩
  · exact hf s t hft hw
  · exact hg u t hgt (hf s u hfu hw)

theorem runCycle_keepsCanonical : KeepsCanonical runCycle := by
  have hstart : KeepsCanonical fun s => writebackStage (startCycle s) :=
    fun s => writebackStage_keepsCanonical (startCycle s)
  have hend : KeepsCanonical fun s => .next (endCycle s) := by
    intro s t h hw
    cases h
    exact hw
  exact hstart.chain <| decodeStage_keepsCanonical.chain <| fetchStage_keepsCanonical.chain <|
    executeStage_keepsCanonical.chain <| memoryStage_keepsCanonical.chain hend

theorem step_keepsCanonical : KeepsCanonical step := by
  intro s t h hw
  unfold step at h
  split at h
  · exact runCycle_keepsCanonical s t h hw
  · cases h; exact hw

/-! ### What the fetch handler of a cycle sees (20 R66) -/

/-- What fetch reads, and what the stages around it are stalled by, is the same in both states. -/
structure SameFetchInput (s t : State) : Prop where
  mem : t.mem = s.mem
  params : t.params = s.params
  f2d : t.f2d = s.f2d
  e2d : t.e2d = s.e2d
  m2e : t.m2e = s.m2e
  w2m : t.w2m = s.w2m

/-- The pc and what fetch has written are the same in both states. -/
structure SameFetchOutput (s t : State) : Prop where
  pc : t.pc = s.pc
  f2d : t.f2d = s.f2d

/-- The writeback handler comes before fetch and touches nothing that fetch reads but the pc (40 R115). -/
theorem writebackStage_sameFetchInput {s t : State} (h : writebackStage s = .next t) : SameFetchInput s t := by
  rw [writebackStage_eq] at h
  cases hr : s.m2w.out with
  | none => simp only [hr] at h; cases h; constructor <;> simp
  | some r =>
    simp only [hr] at h
    rcases writebackPart_cases r.op r { s with stage := .writeback } with ⟨stop, he⟩ | ⟨-, -, he⟩ <;>
      (rw [he] at h; cases h; constructor <;> simp)

/-- The decode handler likewise (40 R116). -/
theorem decodeStage_sameFetchInput {s t : State} (he2d : s.e2d = Port.empty) (h : decodeStage s = .next t) :
    SameFetchInput s t := by
  rw [decodeStage_eq s (by simp [he2d])] at h
  cases hd : s.decodeInput with
  | none => simp only [hd] at h; cases h; constructor <;> simp
  | some f =>
    cases hw : decodeWord f.word with
    | error e => simp only [hd, hw] at h; cases h; constructor <;> simp
    | ok i =>
      simp only [hd, hw] at h
      rcases decodePart_cases i f { s with stage := .decode } with
        ⟨-, he⟩ | ⟨-, stop, he⟩ | ⟨-, -, -, he⟩ <;>
        (rw [he] at h; cases h; constructor <;> simp)

/-- The execute handler comes after fetch and keeps the pc and what fetch has written (40 R119). -/
theorem executeStage_sameFetchOutput {s t : State} (hm2e : s.m2e = Port.empty)
    (h : executeStage s = .next t) : SameFetchOutput s t ∧ t.w2m = s.w2m := by
  rcases executeStage_cases s (by simp [hm2e]) with
    ⟨-, he⟩ | ⟨r, -, -, ⟨stop, he⟩ | ⟨r', he, -⟩⟩ <;>
    (rw [he] at h; cases h; exact ⟨⟨by simp, by simp⟩, by simp⟩)

/-- The memory handler likewise, store or not (40 R120). -/
theorem memoryStage_sameFetchOutput {s t : State} (hw2m : s.w2m = Port.empty)
    (h : memoryStage s = .next t) : SameFetchOutput s t := by
  rcases memoryStage_cases s (by simp [hw2m]) with
    ⟨-, he⟩ | ⟨r, -, -, ⟨stop, he⟩ | ⟨s', r', he, -, rfl | hs⟩⟩ <;> rw [he] at h <;> cases h
  · constructor <;> simp
  · constructor <;> simp
  · constructor <;> simp
  · obtain ⟨rfl, -⟩ := memWrite_ok _ _ _ _ _ hs
    constructor <;> simp

/-- What stands in F2D after the fetch handler of a safe cycle, if nothing stood there before, is the word that
memory holds at the pc (40 R118). -/
theorem fetchStage_written {s t : State} {f : Fetched} (h : fetchStage s = .next t) (ht : t.fatal = none)
    (hs : s.f2d.written = none) (hf : t.f2d.written = some f) :
    f.pc = t.pc ∧ ∃ v, memRead s .unmappedFetch f.pc.toNat 4 = .ok v ∧ f.word = BitVec.ofNat 32 v := by
  rcases fetchStage_cases s with ⟨-, he⟩ | ⟨stop, he⟩ | ⟨-, v, hv, he⟩ <;> rw [he] at h <;> cases h
  case inl => simp [hs] at hf
  case inr.inl =>
    have hstop := raise_isSome { s with stage := .fetch } stop
    simp [ht] at hstop
  case inr.inr =>
    obtain rfl : _ = f := Option.some.inj hf
    exact ⟨rfl, v, hv, rfl⟩

theorem fetchStage_keepsStallPorts {s t : State} (h : fetchStage s = .next t) :
    t.m2e = s.m2e ∧ t.w2m = s.w2m := by
  rcases fetchStage_cases s with ⟨-, he⟩ | ⟨stop, he⟩ | ⟨-, v, -, he⟩ <;>
    (rw [he] at h; cases h; exact ⟨by simp, by simp⟩)

/-- The word fetched in a safe cycle is read from the memory the cycle started with: the handlers before fetch do
not touch memory, and the one that does comes after it (20 R66, 40 R110). -/
theorem runCycle_fetched {s t : State} {f : Fetched} (hi : EngineInv s) (h : runCycle s = .next t)
    (ht : t.fatal = none) (hf : t.f2d.out = some f) :
    f.pc = t.pc ∧ ∃ v, memRead s .unmappedFetch f.pc.toNat 4 = .ok v ∧ f.word = BitVec.ofNat 32 v := by
  obtain ⟨a, b, c, d, e, ha, -, hb, -, hc, hcsafe, hd, -, he, -, rfl⟩ := runCycle_safe s t h ht
  obtain ⟨he2d, hm2e, hw2m⟩ := hi.stallPorts
  have sa := writebackStage_sameFetchInput ha
  have sb := decodeStage_sameFetchInput (sa.e2d.trans he2d) hb
  obtain ⟨cm2e, cw2m⟩ := fetchStage_keepsStallPorts hc
  obtain ⟨sd, dw2m⟩ := executeStage_sameFetchOutput (by simp [cm2e, sb.m2e, sa.m2e, hm2e]) hd
  have se := memoryStage_sameFetchOutput (by simp [dw2m, cw2m, sb.w2m, sa.w2m, hw2m]) he
  have hempty : b.f2d.written = none := by simp [sb.f2d, sa.f2d, hi.dataPorts.1]
  have hwritten : c.f2d.written = some f := by rw [← sd.f2d, ← se.f2d]; exact hf
  obtain ⟨hpc, v, hv, hword⟩ := fetchStage_written hc hcsafe hempty hwritten
  have hmem : b.mem = s.mem := sb.mem.trans sa.mem
  have hparams : b.params = s.params := sb.params.trans sa.params
  refine ⟨?_, v, (memRead_congr hmem hparams _ _ _).symm.trans hv, hword⟩
  rw [hpc, endCycle_pc, se.pc, sd.pc]

/-! ### What the loader does to memory (20 R55, R68) -/

/-- Memory with content bytes written from address `a` on. -/
def loadedContent : Memory → Nat → List Byte → Memory
  | m, _, [] => m
  | m, a, b :: rest => loadedContent (setByte m a b) (a + 1) rest

/-- Memory with the sections of an image written in list order. -/
def loadedImage (m : Memory) (image : List Section) : Memory :=
  image.foldl (fun m c => loadedContent m c.start c.content) m

theorem lookupByte_loadedContent (m : Memory) (a : Nat) (content : List Byte) (x : Nat) :
    lookupByte (loadedContent m a content) x =
      if a ≤ x ∧ x < a + content.length then content[x - a]? else lookupByte m x := by
  induction content generalizing m a with
  | nil => simp [loadedContent, show ¬(a ≤ x ∧ x < a) by omega]
  | cons b rest ih =>
    rw [loadedContent, ih, lookupByte_setByte, List.length_cons]
    rcases Nat.lt_trichotomy x a with hlt | rfl | hgt
    · rw [if_neg (by omega), if_neg (by omega), if_neg (by omega)]
    · rw [if_neg (by omega), if_pos rfl, if_pos (by omega), Nat.sub_self, List.getElem?_cons_zero]
    · have hsub : x - a = x - (a + 1) + 1 := by omega
      rw [if_neg (by omega : x ≠ a), hsub, List.getElem?_cons_succ]
      exact if_congr (by omega) rfl rfl

section Image

variable (m : Memory)

/-- A byte that no section covers is as before (20 R55). -/
theorem lookupByte_loadedImage_of_not_covered {image : List Section} {x : Nat}
    (hsize : ∀ c ∈ image, c.content.length = c.size) (hx : ∀ c ∈ image, ¬ covers c x) :
    lookupByte (loadedImage m image) x = lookupByte m x := by
  induction image generalizing m with
  | nil => rfl
  | cons c rest ih =>
    rw [List.forall_mem_cons] at hsize hx
    have hrest := ih (loadedContent m c.start c.content) hsize.2 hx.2
    rw [lookupByte_loadedContent, hsize.1] at hrest
    exact hrest.trans (if_neg hx.1)

/-- A covered byte is the one of the last section that covers it (20 R55). -/
theorem lookupByte_loadedImage_of_last {front back : List Section} {d : Section} {x : Nat}
    (hsize : ∀ c ∈ front ++ d :: back, c.content.length = c.size) (hd : covers d x)
    (hx : ∀ c ∈ back, ¬ covers c x) :
    lookupByte (loadedImage m (front ++ d :: back)) x = d.content[x - d.start]? := by
  simp only [List.forall_mem_append, List.forall_mem_cons] at hsize
  obtain ⟨-, hsized, hsizeb⟩ := hsize
  have hsplit : loadedImage m (front ++ d :: back) =
      loadedImage (loadedContent (loadedImage m front) d.start d.content) back := by
    simp [loadedImage]
  rw [hsplit, lookupByte_loadedImage_of_not_covered _ hsizeb hx, lookupByte_loadedContent, hsized]
  exact if_pos hd

end Image

/-- A section that may be handed over: its content has its size, and it lies inside the address space. -/
theorem section_wellFormed_iff (c : Section) :
    c.wellFormed = true ↔
      c.content.length = c.size ∧ c.start < Config.addrSpace ∧ c.start + c.size ≤ Config.addrSpace := by
  simp [Section.wellFormed, Section.sizeMatches, Section.inAddressSpace]

/-- The loader's write of a byte that can be stored. -/
theorem memWrite_byte {s : State} {a : Nat} (b : Byte) (ha : a < Config.addrSpace)
    (hs : a ∉ s.params.unstorable) :
    memWrite s a 1 b.toNat = .ok { s with mem := setByte s.mem a b } := by
  have hstorable : Storable s a 1 := by
    intro x h1 h2 hx
    obtain rfl : x = a := by omega
    exact absurd hx hs
  rw [memWrite_of_storable s a 1 b.toNat ha hstorable]
  simp [storeBytes]

/-- Content whose first part can be stored: the loader stores it and goes on. -/
theorem loadContent_append (s : State) (a : Nat) (content rest : List Byte)
    (hrange : a + content.length ≤ Config.addrSpace)
    (hs : ∀ x, a ≤ x → x < a + content.length → x ∉ s.params.unstorable) :
    loadContent s a (content ++ rest) =
      loadContent { s with mem := loadedContent s.mem a content } (a + content.length) rest := by
  induction content generalizing s a with
  | nil => rfl
  | cons b content ih =>
    rw [List.length_cons] at hrange hs ⊢
    rw [List.cons_append, loadContent, memWrite_byte b (by omega) (hs a le_rfl (by omega))]
    have hrest := ih { s with mem := setByte s.mem a b } (a + 1) (by omega)
      fun x h1 h2 => hs x (by omega) (by omega)
    rw [Nat.add_assoc, Nat.add_comm 1] at hrest
    exact hrest

/-- The loader stops at the first byte of the content that it newly maps and that cannot be stored, with the bytes
before it stored (20 R68). -/
theorem loadContent_allocationFailure {s : State} {a k : Nat} {content : List Byte}
    (hk : k < content.length) (hrange : a + content.length ≤ Config.addrSpace)
    (hs : ∀ x, a ≤ x → x < a + k → x ∉ s.params.unstorable) (hu : a + k ∈ s.params.unstorable)
    (hm : State.byteAt { s with mem := loadedContent s.mem a (content.take k) } (a + k) = none) :
    loadContent s a content =
      State.raise { s with mem := loadedContent s.mem a (content.take k) }
        ⟨.allocationFailure, .address (a + k)⟩ := by
  have hlen : (content.take k).length = k := List.length_take_of_le hk.le
  have hcontent : content = content.take k ++ content[k] :: content.drop (k + 1) := by
    rw [← List.drop_eq_getElem_cons hk, List.take_append_drop]
  have hfirst := loadContent_append s a (content.take k) (content[k] :: content.drop (k + 1))
    (by omega) (by rwa [hlen])
  rw [← hcontent, hlen] at hfirst
  rw [hfirst, loadContent, memWrite_of_firstUnstorable _ (a + k) 1 _ (by omega)
    ⟨le_rfl, by omega, hm, hu, fun x _ _ => by omega⟩]

/-- No section is loaded after a Fatal. -/
theorem loadSections_of_fatal {s : State} (h : s.fatal.isSome = true) (image : List Section) :
    loadSections s image = s := by
  cases image with
  | nil => rfl
  | cons c rest => rw [loadSections, if_pos h]

theorem loadSections_cons {s : State} (h : s.fatal = none) (c : Section) (rest : List Section) :
    loadSections s (c :: rest) = loadSections (loadContent s c.start c.content) rest := by
  simp [loadSections, h]

/-- An image whose first sections can be stored: the loader stores them and goes on (20 R55). -/
theorem loadSections_append {s : State} (hf : s.fatal = none) (front rest : List Section)
    (hw : ∀ c ∈ front, c.wellFormed = true)
    (hs : ∀ c ∈ front, ∀ x, covers c x → x ∉ s.params.unstorable) :
    loadSections s (front ++ rest) = loadSections { s with mem := loadedImage s.mem front } rest := by
  induction front generalizing s with
  | nil => rfl
  | cons c front ih =>
    rw [List.forall_mem_cons] at hw hs
    obtain ⟨hsize, -, hrange⟩ := (section_wellFormed_iff c).mp hw.1
    have hload := loadContent_append s c.start c.content [] (by omega)
      (fun x h1 h2 => hs.1 x ⟨h1, hsize ▸ h2⟩)
    rw [List.append_nil] at hload
    rw [List.cons_append, loadSections_cons hf, hload]
    exact ih (s := { s with mem := loadedContent s.mem c.start c.content }) hf hw.2 hs.2

/-! ### The reset sequence with an image (70 R300, R301) -/

/-- The state the sections are loaded into (70 R300; log 21). -/
def loaderState (p : Params) (n : Counter) (text : Section) : State :=
  { State.resetWith { p with textBase := BitVec.ofNat 32 text.start } n [] with stage := .loader }

section Boot

variable {p : Params} {n : Counter} {image : List Section} {text : Section}

theorem badSection_eq_none (hw : ∀ c ∈ image, c.wellFormed = true) : badSection image = none := by
  rw [badSection, List.find?_eq_none]
  intro c hc
  simp [hw c hc]

/-- The last `.text` section of an image (20 R55). -/
theorem textSection_of_last {before after : List Section} (ht : text.name = textName)
    (ha : ∀ c ∈ after, c.name ≠ textName) : textSection (before ++ text :: after) = some text := by
  have hnone : after.filter (fun c => c.name == textName) = [] := by
    simpa [List.filter_eq_nil_iff] using ha
  simp [textSection, ht, hnone]

theorem textSection_of_mem (h : ∃ c ∈ image, c.name = textName) : ∃ text, textSection image = some text := by
  obtain ⟨c, hc, hn⟩ := h
  have hmem : c ∈ image.filter (fun c => c.name == textName) := by simp [hc, hn]
  exact ⟨_, List.getLast?_eq_some_getLast (List.ne_nil_of_mem hmem)⟩

theorem boot_of_safe (hw : ∀ c ∈ image, c.wellFormed = true) (ht : textSection image = some text)
    (hf : (loadSections (loaderState p n text) image).fatal = none) :
    boot p n image = .next { loadSections (loaderState p n text) image with stage := .writeback } := by
  simp only [boot, badSection_eq_none hw, ht]
  exact if_neg (by simpa [loaderState] using hf)

theorem boot_of_fatal (hw : ∀ c ∈ image, c.wellFormed = true) (ht : textSection image = some text)
    (hf : (loadSections (loaderState p n text) image).fatal.isSome = true) :
    boot p n image = .next (loadSections (loaderState p n text) image) := by
  simp only [boot, badSection_eq_none hw, ht]
  exact if_pos hf

/-- An image whose bytes can all be stored: the reset state with the image in memory. -/
theorem boot_of_storable (hw : ∀ c ∈ image, c.wellFormed = true) (ht : textSection image = some text)
    (hs : ∀ c ∈ image, ∀ x, covers c x → x ∉ p.unstorable) :
    boot p n image =
      .next (State.resetWith { p with textBase := BitVec.ofNat 32 text.start } n (loadedImage [] image)) := by
  have hload := loadSections_append (s := loaderState p n text) rfl image [] hw hs
  rw [List.append_nil] at hload
  rw [boot_of_safe hw ht (by rw [hload]; rfl), hload]
  rfl

end Boot

/-- Memory when the loader has stored the sections of `front` and the first `k` bytes of `d`. -/
def loadedUpTo (front : List Section) (d : Section) (k : Nat) : Memory :=
  loadedContent (loadedImage [] front) d.start (d.content.take k)

section AllocationFailure

variable {p : Params} {n : Counter} {front back : List Section} {d text : Section} {k : Nat}

/-- No byte is listed that the loader has not come to. -/
theorem lookupByte_loadedUpTo_eq_none {x : Nat} (hsize : ∀ c ∈ front, c.content.length = c.size)
    (hk : k ≤ d.content.length) (hx : ∀ c ∈ front, ¬ covers c x) (hd : ¬(d.start ≤ x ∧ x < d.start + k)) :
    lookupByte (loadedUpTo front d k) x = none := by
  rw [loadedUpTo, lookupByte_loadedContent, List.length_take_of_le hk, if_neg hd,
    lookupByte_loadedImage_of_not_covered [] hsize hx]
  rfl

/-- Byte `k` of section `d` is still unmapped when the loader comes to it, if no byte before it is that byte or, under
the page granularity, lies in its chunk (20 R56). -/
theorem byteAt_next_eq_none {s : State} {x : Nat} (hs : s.mem = loadedUpTo front d k)
    (hsize : ∀ c ∈ front, c.content.length = c.size) (hk : k ≤ d.content.length)
    (hx : ∀ c ∈ front, ¬ covers c x) (hd : ¬(d.start ≤ x ∧ x < d.start + k))
    (hpage : s.params.mapGranularity = .page →
      ∀ y, ((∃ c ∈ front, covers c y) ∨ (d.start ≤ y ∧ y < d.start + k)) → sameChunk y x = false) :
    s.byteAt x = none := by
  refine (byteAt_eq_none_iff s x).mpr ⟨hs ▸ lookupByte_loadedUpTo_eq_none hsize hk hx hd, fun hg => ?_⟩
  rw [← Bool.not_eq_true, chunkMapped_iff_written]
  rintro ⟨y, hlisted, hchunk⟩
  by_cases hy : (∃ c ∈ front, covers c y) ∨ (d.start ≤ y ∧ y < d.start + k)
  · rw [hpage hg y hy] at hchunk
    cases hchunk
  · rw [not_or] at hy
    rw [hs, lookupByte_loadedUpTo_eq_none hsize hk (fun c hc hcov => hy.1 ⟨c, hc, hcov⟩) hy.2] at hlisted
    cases hlisted

/-- The loader stores everything before byte `k` of section `d` and raises the Fatal there (20 R68, 60 R271). -/
theorem loadSections_allocationFailure {s : State} (hf : s.fatal = none) (hm : s.mem = [])
    (hw : ∀ c ∈ front ++ d :: back, c.wellFormed = true)
    (hfront : ∀ c ∈ front, ∀ x, covers c x → x ∉ s.params.unstorable)
    (hbefore : ∀ x, d.start ≤ x → x < d.start + k → x ∉ s.params.unstorable)
    (hk : k < d.size) (hu : d.start + k ∈ s.params.unstorable)
    (hpage : s.params.mapGranularity = .page →
      ∀ x, ((∃ c ∈ front, covers c x) ∨ (d.start ≤ x ∧ x < d.start + k)) →
        sameChunk x (d.start + k) = false) :
    loadSections s (front ++ d :: back) =
      State.raise { s with mem := loadedUpTo front d k } ⟨.allocationFailure, .address (d.start + k)⟩ := by
  simp only [List.forall_mem_append, List.forall_mem_cons] at hw
  obtain ⟨hwf, hwd, -⟩ := hw
  obtain ⟨hsize, -, hrange⟩ := (section_wellFormed_iff d).mp hwd
  rw [← hsize] at hk hrange
  have hunmapped : State.byteAt { s with mem := loadedUpTo front d k } (d.start + k) = none :=
    byteAt_next_eq_none rfl (fun c hc => ((section_wellFormed_iff c).mp (hwf c hc)).1) hk.le
      (fun c hc hcov => hfront c hc _ hcov hu) (by omega) hpage
  calc loadSections s (front ++ d :: back)
      = loadSections { s with mem := loadedImage [] front } (d :: back) := by
        rw [loadSections_append hf front (d :: back) hwf hfront, hm]
    _ = loadSections (loadContent { s with mem := loadedImage [] front } d.start d.content) back :=
        loadSections_cons (s := { s with mem := loadedImage [] front }) hf d back
    _ = loadSections (State.raise { s with mem := loadedUpTo front d k }
          ⟨.allocationFailure, .address (d.start + k)⟩) back :=
        congrArg (loadSections · back) (loadContent_allocationFailure hk hrange hbefore hu hunmapped)
    _ = _ := loadSections_of_fatal (raise_isSome _ _) back

end AllocationFailure

/-! ### The statements -/

/-- Settles O13: both outcomes are settled by induction on the width, byte by byte. -/
theorem readGivesTheBytes : Obligations.ReadGivesTheBytes := fun s c a n =>
  ⟨memRead_ok_iff s c a n, memRead_error_iff s c a n⟩

/-- Settles O14: the read of the whole range is the case of the first byte and the full width. -/
theorem writeThenReadReturnsTheValue : Obligations.WriteThenReadReturnsTheValue := by
  intro s t c a n v h
  refine ⟨?whole, fun k m hkm => memRead_after_memWrite h c hkm⟩
  case whole => simpa using memRead_after_memWrite h c (k := 0) (m := n) (by omega)

/-- Settles O15: one rule for each outcome of the two checks, and one for the bytes a write leaves. -/
theorem writeStoresItsBytesOnly : Obligations.WriteStoresItsBytesOnly := by
  intro s a n v
  refine ⟨fun _ ha hn => memWrite_past_end s a n v ha.le hn, fun hn => ⟨?unstorable, fun hs => ?stored⟩⟩
  case unstorable => exact fun x hx => memWrite_of_firstUnstorable s a n v hn hx
  case stored =>
    exact ⟨_, memWrite_of_storable s a n v hn hs, rfl, fun k hk => byteAt_storeBytes_inside s a n v hk,
      storeBytes_sameBytesOutside s a n v⟩

/-- Settles O16: each handler keeps the form, so the chain of them does. -/
theorem stepKeepsMemoryCanonical : Obligations.StepKeepsMemoryCanonical :=
  fun s t hw h => step_keepsCanonical s t h hw

/-- Settles O55: a step of a running state is a cycle, in which fetch comes before the memory stage. -/
theorem fetchSeesEarlierStoresOnly : Obligations.FetchSeesEarlierStoresOnly := by
  intro s t f hi hrun h ht hf
  rw [step_running s hrun] at h
  exact runCycle_fetched hi h ht hf

/-- Settles O9: the two runs of the loader, to its end and to its Fatal. -/
theorem bootLoadsTheSections : Obligations.BootLoadsTheSections := by
  constructor
  · intro p n before text after hw ht hafter hs
    have hsize : ∀ c ∈ before ++ text :: after, c.content.length = c.size :=
      fun c hc => ((section_wellFormed_iff c).mp (hw c hc)).1
    refine ⟨_, boot_of_storable hw (textSection_of_last ht hafter) hs, rfl, fun a ha => ?unlisted,
      fun front d back a himage hd hback => ?last⟩
    case unlisted => exact lookupByte_loadedImage_of_not_covered [] hsize ha
    case last =>
      have hlook := lookupByte_loadedImage_of_last [] (himage ▸ hsize) hd hback
      rw [← himage] at hlook
      have hlt : a - d.start < d.content.length := by
        obtain ⟨hge, hlt⟩ := hd
        rw [hsize d (by simp [himage])]
        omega
      rw [List.getElem?_eq_getElem hlt] at hlook ⊢
      exact (byteAt_eq_some_iff _ _ _).mpr (.inl hlook)
  · intro p n front d back k hw htext hfront hbefore hk hu hpage
    obtain ⟨text, ht⟩ := textSection_of_mem htext
    have hload := loadSections_allocationFailure (s := loaderState p n text) rfl rfl hw hfront hbefore hk hu hpage
    have hboot := boot_of_fatal (p := p) (n := n) hw ht (by rw [hload]; exact raise_isSome _ _)
    rw [hload] at hboot
    refine ⟨_, hboot, raise_fatal_of_safe _ _ rfl, fun x hx hd => ?_⟩
    have hsize : d.content.length = d.size := ((section_wellFormed_iff d).mp (hw d (by simp))).1
    rw [raise_mem]
    exact lookupByte_loadedUpTo_eq_none
      (fun c hc => ((section_wellFormed_iff c).mp (hw c (by simp [hc]))).1) (by omega) hx hd

end Sys2Proof.Machine

/-! # The decoder and the encoder (spec 30_encoding.md)

First the lookup of a row, said once: `rowOf` is the row a key selects, and `decodeWord_eq` and
`decodeWord_eq_ok_iff` say what the decoder answers by it. Then the fields of a word, of an encoded word, and of the
bytes of a word; what holds of every row of the tables; then the statements of this family. -/

namespace Sys2Proof.Machine

/-! ### Looking up a key in a table -/

theorem mem_of_lookup_eq_some {α : Type} {rows : List (Nat × α)} {key : Nat} {a : α}
    (h : rows.lookup key = some a) : (key, a) ∈ rows := by
  obtain ⟨before, after, rfl, -⟩ := List.lookup_eq_some_iff.mp h
  simp

theorem lookup_map_snd {α β : Type} (f : α → β) (rows : List (Nat × α)) (key : Nat) :
    (rows.lookup key).map f = (rows.map fun row => (row.1, f row.2)).lookup key := by
  induction rows with
  | nil => rfl
  | cons row rows ih =>
    rw [List.map_cons, List.lookup_cons, List.lookup_cons, ← ih]
    cases key == row.1 <;> rfl

/-! ### The row a key selects (30 R83) -/

/-- The rows of the opcode map, which have their opcode as key (30 R90). -/
def opcodeRows : List (Nat × (Word → Instr)) := jFormatRows ++ iFormatRows

/-- The row of a key (30 R83). -/
def rowOf (opcode funct : Nat) : Option (Word → Instr) :=
  if opcode = 0 then rFormatRows.lookup funct else opcodeRows.lookup opcode

/-- The name under which a key without a row is refused (30 R84). -/
def refusalOf (opcode funct : Nat) : DecodeError :=
  if opcode = 0 then .noFunctRow funct else .noOpcodeRow opcode

theorem rowOf_zero (funct : Nat) : rowOf 0 funct = rFormatRows.lookup funct := rfl

theorem rowOf_of_ne_zero {opcode : Nat} (h : opcode ≠ 0) (funct : Nat) :
    rowOf opcode funct = opcodeRows.lookup opcode := if_neg h

/-- The function code counts for opcode 0 only (30 R83). -/
theorem rowOf_congr {opcode funct funct' : Nat} (h : opcode = 0 → funct = funct') :
    rowOf opcode funct = rowOf opcode funct' ∧ refusalOf opcode funct = refusalOf opcode funct' := by
  by_cases h0 : opcode = 0
  · rw [h h0]
    exact ⟨rfl, rfl⟩
  · simp [rowOf, refusalOf, h0]

/-- The three tables are looked up as two: opcodes 2 and 3 are the J-format rows, and no other (30 R82, R83). -/
theorem opcodeRows_lookup (opcode : Nat) :
    opcodeRows.lookup opcode =
      if opcode = 0x02 ∨ opcode = 0x03 then jFormatRows.lookup opcode else iFormatRows.lookup opcode := by
  rw [opcodeRows, List.lookup_append]
  split
  · next hj => rcases hj with rfl | rfl <;> rfl
  · next hi =>
    obtain ⟨h2, h3⟩ := not_or.mp hi
    simp [jFormatRows, List.lookup_cons, beq_false_of_ne h2, beq_false_of_ne h3]

/-- The decoder is the lookup of the word's key (30 R83, R84). -/
theorem decodeWord_eq (w : Word) :
    decodeWord w = (rowOf (opcodeOf w) (functOf w)).elim
      (.error (refusalOf (opcodeOf w) (functOf w))) (fun build => .ok (build w)) := by
  unfold decodeWord formatOf rowOf refusalOf
  rw [opcodeRows_lookup]
  by_cases h0 : opcodeOf w = 0
  · simp only [if_pos h0]
    cases rFormatRows.lookup (functOf w) <;> rfl
  · by_cases hj : opcodeOf w = 0x02 ∨ opcodeOf w = 0x03
    · simp only [if_neg h0, if_pos hj]
      cases jFormatRows.lookup (opcodeOf w) <;> rfl
    · simp only [if_neg h0, if_neg hj]
      cases iFormatRows.lookup (opcodeOf w) <;> rfl

theorem decodeWord_of_rowOf {w : Word} {build : Word → Instr}
    (h : rowOf (opcodeOf w) (functOf w) = some build) : decodeWord w = .ok (build w) := by
  rw [decodeWord_eq, h, Option.elim_some]

theorem decodeWord_eq_ok_iff (w : Word) (i : Instr) :
    decodeWord w = .ok i ↔ ∃ build, rowOf (opcodeOf w) (functOf w) = some build ∧ build w = i := by
  rw [decodeWord_eq]
  cases rowOf (opcodeOf w) (functOf w) <;> simp

/-! ### The fields of a word (30 R81) -/

theorem bitField_eq_extractLsb' (w : Word) (lo n : Nat) : bitField w lo n = (w.extractLsb' lo n).toNat := by
  rw [bitField, BitVec.extractLsb'_toNat, Nat.shiftRight_eq_div_pow]

theorem ofNat_bitField (w : Word) (lo n : Nat) : BitVec.ofNat n (bitField w lo n) = w.extractLsb' lo n := by
  rw [bitField_eq_extractLsb', BitVec.ofNat_toNat, BitVec.setWidth_eq]

theorem opcodeOf_eq (w : Word) : opcodeOf w = (w.extractLsb' 26 6).toNat := bitField_eq_extractLsb' w 26 6
theorem rsOf_eq (w : Word) : rsOf w = (w.extractLsb' 21 5).toNat := bitField_eq_extractLsb' w 21 5
theorem rtOf_eq (w : Word) : rtOf w = (w.extractLsb' 16 5).toNat := bitField_eq_extractLsb' w 16 5
theorem rdOf_eq (w : Word) : rdOf w = (w.extractLsb' 11 5).toNat := bitField_eq_extractLsb' w 11 5
theorem functOf_eq (w : Word) : functOf w = (w.extractLsb' 0 6).toNat := bitField_eq_extractLsb' w 0 6
theorem shamtOf_eq (w : Word) : shamtOf w = w.extractLsb' 6 5 := ofNat_bitField w 6 5
theorem immOf_eq (w : Word) : immOf w = w.extractLsb' 0 16 := ofNat_bitField w 0 16
theorem targetOf_eq (w : Word) : targetOf w = w.extractLsb' 0 26 := ofNat_bitField w 0 26

theorem bitField_lt (w : Word) (lo n : Nat) : bitField w lo n < 2 ^ n := Nat.mod_lt _ (by positivity)

@[simp] theorem rsOf_lt (w : Word) : rsOf w < 32 := bitField_lt w 21 5
@[simp] theorem rtOf_lt (w : Word) : rtOf w < 32 := bitField_lt w 16 5
@[simp] theorem rdOf_lt (w : Word) : rdOf w < 32 := bitField_lt w 11 5

/-! ### The fields of an encoded word (30 R81) -/

section RWord

variable (rs rt rd shamt funct : Nat)

theorem rWord_toNat : (rWord rs rt rd shamt funct).toNat =
    rs % 32 * 2 ^ 21 + rt % 32 * 2 ^ 16 + rd % 32 * 2 ^ 11 + shamt % 32 * 2 ^ 6 + funct % 64 := by
  rw [rWord, BitVec.toNat_ofNat]
  omega

@[simp] theorem opcodeOf_rWord : opcodeOf (rWord rs rt rd shamt funct) = 0 := by
  rw [opcodeOf, bitField, rWord_toNat]
  omega

@[simp] theorem rsOf_rWord : rsOf (rWord rs rt rd shamt funct) = rs % 32 := by
  rw [rsOf, bitField, rWord_toNat]
  omega

@[simp] theorem rtOf_rWord : rtOf (rWord rs rt rd shamt funct) = rt % 32 := by
  rw [rtOf, bitField, rWord_toNat]
  omega

@[simp] theorem rdOf_rWord : rdOf (rWord rs rt rd shamt funct) = rd % 32 := by
  rw [rdOf, bitField, rWord_toNat]
  omega

@[simp] theorem functOf_rWord : functOf (rWord rs rt rd shamt funct) = funct % 64 := by
  rw [functOf, bitField, rWord_toNat]
  omega

@[simp] theorem shamtOf_rWord (shamt : BitVec 5) : shamtOf (rWord rs rt rd shamt.toNat funct) = shamt := by
  have hlt := shamt.isLt
  apply BitVec.eq_of_toNat_eq
  rw [shamtOf, BitVec.toNat_ofNat, bitField, rWord_toNat]
  omega

end RWord

section IWord

variable (opcode rs rt : Nat) (imm : Half)

theorem iWord_toNat : (iWord opcode rs rt imm).toNat =
    opcode % 64 * 2 ^ 26 + rs % 32 * 2 ^ 21 + rt % 32 * 2 ^ 16 + imm.toNat := by
  have hlt := imm.isLt
  rw [iWord, BitVec.toNat_ofNat]
  omega

@[simp] theorem opcodeOf_iWord : opcodeOf (iWord opcode rs rt imm) = opcode % 64 := by
  have hlt := imm.isLt
  rw [opcodeOf, bitField, iWord_toNat]
  omega

@[simp] theorem rsOf_iWord : rsOf (iWord opcode rs rt imm) = rs % 32 := by
  have hlt := imm.isLt
  rw [rsOf, bitField, iWord_toNat]
  omega

@[simp] theorem rtOf_iWord : rtOf (iWord opcode rs rt imm) = rt % 32 := by
  have hlt := imm.isLt
  rw [rtOf, bitField, iWord_toNat]
  omega

@[simp] theorem immOf_iWord : immOf (iWord opcode rs rt imm) = imm := by
  have hlt := imm.isLt
  apply BitVec.eq_of_toNat_eq
  rw [immOf, BitVec.toNat_ofNat, bitField, iWord_toNat]
  omega

end IWord

section JWord

variable (opcode : Nat) (target : BitVec 26)

theorem jWord_toNat : (jWord opcode target).toNat = opcode % 64 * 2 ^ 26 + target.toNat := by
  have hlt := target.isLt
  rw [jWord, BitVec.toNat_ofNat]
  omega

@[simp] theorem opcodeOf_jWord : opcodeOf (jWord opcode target) = opcode % 64 := by
  have hlt := target.isLt
  rw [opcodeOf, bitField, jWord_toNat]
  omega

@[simp] theorem targetOf_jWord : targetOf (jWord opcode target) = target := by
  have hlt := target.isLt
  apply BitVec.eq_of_toNat_eq
  rw [targetOf, BitVec.toNat_ofNat, bitField, jWord_toNat]
  omega

end JWord

/-! ### A word and its bytes (20 R57, 30 R80) -/

/-- The word of the bytes of `w` in memory order is `w`. -/
theorem wordOfBytes_bitField (w : Word) :
    wordOfBytes (BitVec.ofNat 8 (bitField w 0 8)) (BitVec.ofNat 8 (bitField w 8 8))
      (BitVec.ofNat 8 (bitField w 16 8)) (BitVec.ofNat 8 (bitField w 24 8)) = w := by
  have hlt := w.isLt
  apply BitVec.eq_of_toNat_eq
  simp only [wordOfBytes, bitField, BitVec.toNat_ofNat]
  omega

theorem decodeBytes_bytesOfWord {w : Word} {i : Instr} (h : decodeWord w = .ok i) (rest : List Byte) :
    decodeBytes (bytesOfWord w ++ rest) = .ok (i, rest) := by
  simp only [bytesOfWord, List.cons_append, List.nil_append, decodeBytes, wordOfBytes_bitField, h]

/-! ### What holds of every row of the tables (30 R88) -/

/-- A row is found in the function map for opcode 0, and in the opcode map for another opcode (30 R83). -/
theorem rowOf_cases {opcode funct : Nat} {build : Word → Instr} (h : rowOf opcode funct = some build) :
    (opcode = 0 ∧ (funct, build) ∈ rFormatRows) ∨ (opcode ≠ 0 ∧ (opcode, build) ∈ opcodeRows) := by
  by_cases h0 : opcode = 0
  · rw [h0, rowOf_zero] at h
    exact .inl ⟨h0, mem_of_lookup_eq_some h⟩
  · rw [rowOf_of_ne_zero h0] at h
    exact .inr ⟨h0, mem_of_lookup_eq_some h⟩

/-- An R-format row builds well-formed instructions, encoded under its function code. -/
theorem rFormatRows_encode (w : Word) : ∀ row ∈ rFormatRows,
    (row.2 w).wellFormed = true ∧ opcodeOf (encode (row.2 w)) = 0 ∧ functOf (encode (row.2 w)) = row.1 := by
  simp only [rFormatRows, List.forall_mem_cons]
  simp [Instr.wellFormed, Instr.regNums, encode]

/-- An I- or J-format row builds well-formed instructions, encoded under its opcode. -/
theorem opcodeRows_encode (w : Word) : ∀ row ∈ opcodeRows,
    (row.2 w).wellFormed = true ∧ opcodeOf (encode (row.2 w)) = row.1 := by
  simp only [opcodeRows, jFormatRows, iFormatRows, List.cons_append, List.nil_append, List.forall_mem_cons]
  simp [Instr.wellFormed, Instr.regNums, encode]

/-- What a row builds from two words differs in its operands only. -/
theorem mnemonic_congr {opcode funct : Nat} {build : Word → Instr} (h : rowOf opcode funct = some build)
    (w w' : Word) : (build w).mnemonic = (build w').mnemonic := by
  have names (rows : List (Nat × (Word → Instr)))
      (hrows : rows.map (fun row => (row.2 w).mnemonic) = rows.map (fun row => (row.2 w').mnemonic)) :
      ∀ row ∈ rows, (row.2 w).mnemonic = (row.2 w').mnemonic := List.map_inj_left.mp hrows
  rcases rowOf_cases h with ⟨-, hrow⟩ | ⟨-, hrow⟩
  · exact names rFormatRows rfl _ hrow
  · exact names opcodeRows rfl _ hrow

theorem regNum_lt {i : Instr} (h : i.wellFormed = true) {x : Nat} (hx : x ∈ i.regNums) : x < 32 :=
  of_decide_eq_true (List.all_eq_true.mp h x hx)

/-- The row of an encoded instruction is the one that builds it from the fields of its word. Constructor by
constructor: the key of the encoded word finds the row by computation, and a field of five bits holds a register
number whole. -/
theorem rowOf_encode (i : Instr) (h : i.wellFormed = true) :
    ∃ build, rowOf (opcodeOf (encode i)) (functOf (encode i)) = some build ∧ build (encode i) = i := by
  have hregs : ∀ x ∈ i.regNums, x % 32 = x := fun x hx => Nat.mod_eq_of_lt (regNum_lt h hx)
  cases i <;> simp only [Instr.regNums, List.forall_mem_cons] at hregs <;>
    exact ⟨_, by simp only [encode, opcodeOf_rWord, opcodeOf_iWord, opcodeOf_jWord, functOf_rWord]; rfl,
      by simp [encode, hregs]⟩

/-- A decoded instruction is well-formed, and is encoded under the key of its word (30 R83, R88). -/
theorem encode_keeps_key {w : Word} {i : Instr} (h : decodeWord w = .ok i) :
    i.wellFormed = true ∧ opcodeOf (encode i) = opcodeOf w ∧
      (opcodeOf w = 0 → functOf (encode i) = functOf w) := by
  obtain ⟨build, hrow, rfl⟩ := (decodeWord_eq_ok_iff w i).mp h
  rcases rowOf_cases hrow with ⟨h0, hmem⟩ | ⟨h0, hmem⟩
  · obtain ⟨hwf, hop, hfunct⟩ := rFormatRows_encode w _ hmem
    exact ⟨hwf, hop.trans h0.symm, fun _ => hfunct⟩
  · obtain ⟨hwf, hop⟩ := opcodeRows_encode w _ hmem
    exact ⟨hwf, hop, fun h => absurd h h0⟩

/-- The mnemonic of a decoded word is that of the row of its key. -/
theorem decodeWord_mnemonic (w : Word) :
    (decodeWord w).toOption.map Instr.mnemonic =
      (rowOf (opcodeOf w) (functOf w)).map fun build => (build w).mnemonic := by
  rw [decodeWord_eq]
  cases rowOf (opcodeOf w) (functOf w) <;> rfl

/-! ### The rows of one operand pattern (30 R88) -/

section Pattern

variable {α : Type} {rows : List (Nat × α)} {operands : α → Word → Instr}

/-- R-format rows that build their instruction from the same fields. -/
theorem decodeWord_of_functRows
    (hrows : rows.map (fun p => rFormatRows.lookup p.1) = rows.map (fun p => some (operands p.2))) (w : Word) :
    ∀ p ∈ rows, opcodeOf w = 0 → functOf w = p.1 → decodeWord w = .ok (operands p.2 w) := by
  intro p hp hop hfunct
  have hrow := List.map_inj_left.mp hrows p hp
  exact decodeWord_of_rowOf (by rw [hop, hfunct, rowOf_zero, hrow])

/-- I- or J-format rows that build their instruction from the same fields. -/
theorem decodeWord_of_opcodeRows
    (hrows : rows.map (fun p => opcodeRows.lookup p.1) = rows.map (fun p => some (operands p.2))) (w : Word) :
    ∀ p ∈ rows, opcodeOf w = p.1 → decodeWord w = .ok (operands p.2 w) := by
  intro p hp hop
  have hrow := List.map_inj_left.mp hrows p hp
  have h0 : p.1 ≠ 0 := fun h0 => by
    rw [h0] at hrow
    cases hrow
  exact decodeWord_of_rowOf (by rw [hop, rowOf_of_ne_zero h0, hrow])

end Pattern

/-! ### The statements -/

/-- Settles O1: the key of the encoded word selects the instruction's row, whose fields are its operands. -/
theorem decodeEncodeRoundTrip : Obligations.DecodeEncodeRoundTrip := by
  intro i h
  have hword : decodeWord (encode i) = .ok i := (decodeWord_eq_ok_iff _ i).mpr (rowOf_encode i h)
  exact ⟨hword, decodeBytes_bytesOfWord hword⟩

/-- Settles O2: the key by the tables' rows, then the rows of each operand pattern. -/
theorem decodedInstructionKeepsItsKey : Obligations.DecodedInstructionKeepsItsKey := by
  refine ⟨fun w i => encode_keeps_key, fun w => ?_⟩
  simp only [← rsOf_eq, ← rtOf_eq, ← rdOf_eq, ← shamtOf_eq, ← immOf_eq, ← targetOf_eq]
  refine ⟨opcodeOf_eq w, functOf_eq w, ?rdRsRt, ?rdRtRs, ?rdRtShamt, ?rsRt, ?jalr, ?rs, ?rd, ?noOperand, ?rtRsImm,
    ?rsRtImm, ?rsImm, ?lui, ?rtImmRs, ?target, ?trap⟩
  case rdRsRt =>
    exact decodeWord_of_functRows
      (operands := fun (op : Nat → Nat → Nat → Instr) w => op (rdOf w) (rsOf w) (rtOf w)) rfl w
  case rdRtRs =>
    exact decodeWord_of_functRows
      (operands := fun (op : Nat → Nat → Nat → Instr) w => op (rdOf w) (rtOf w) (rsOf w)) rfl w
  case rdRtShamt =>
    exact decodeWord_of_functRows
      (operands := fun (op : Nat → Nat → BitVec 5 → Instr) w => op (rdOf w) (rtOf w) (shamtOf w)) rfl w
  case rsRt =>
    exact decodeWord_of_functRows (operands := fun (op : Nat → Nat → Instr) w => op (rsOf w) (rtOf w)) rfl w
  case jalr => exact fun hop hfunct => decodeWord_of_rowOf (by rw [hop, hfunct]; rfl)
  case rs =>
    exact decodeWord_of_functRows (operands := fun (op : Nat → Instr) w => op (rsOf w)) rfl w
  case rd =>
    exact decodeWord_of_functRows (operands := fun (op : Nat → Instr) w => op (rdOf w)) rfl w
  case noOperand =>
    exact decodeWord_of_functRows (operands := fun (op : Instr) _ => op) rfl w
  case rtRsImm =>
    exact decodeWord_of_opcodeRows
      (operands := fun (op : Nat → Nat → Half → Instr) w => op (rtOf w) (rsOf w) (immOf w)) rfl w
  case rsRtImm =>
    exact decodeWord_of_opcodeRows
      (operands := fun (op : Nat → Nat → Half → Instr) w => op (rsOf w) (rtOf w) (immOf w)) rfl w
  case rsImm =>
    exact decodeWord_of_opcodeRows (operands := fun (op : Nat → Half → Instr) w => op (rsOf w) (immOf w)) rfl w
  case lui => exact fun hop => decodeWord_of_rowOf (by rw [hop]; rfl)
  case rtImmRs =>
    exact decodeWord_of_opcodeRows
      (operands := fun (op : Nat → Half → Nat → Instr) w => op (rtOf w) (immOf w) (rsOf w)) rfl w
  case target =>
    exact decodeWord_of_opcodeRows (operands := fun (op : BitVec 26 → Instr) w => op (targetOf w)) rfl w
  case trap => exact fun hop => decodeWord_of_rowOf (by rw [hop]; rfl)

/-- Settles O3: the key gives the row, and the row the mnemonic. -/
theorem onlyTheKeySelectsTheRow : Obligations.OnlyTheKeySelectsTheRow := by
  intro w w' hop hfunct
  obtain ⟨hrow, hrefusal⟩ := rowOf_congr hfunct
  rw [decodeWord_eq w, decodeWord_eq w', ← hop, ← hrow, ← hrefusal]
  cases hbuild : rowOf (opcodeOf w) (functOf w) with
  | none => rfl
  | some build => exact congrArg Except.ok (mnemonic_congr hbuild w w')

/-- Settles O4: the two maps are the decoder's tables with the mnemonic of each row. -/
theorem everyWordHasOneRowOrFails : Obligations.EveryWordHasOneRowOrFails := by
  intro w
  rw [decodeWord_mnemonic, rowOf]
  by_cases h0 : opcodeOf w = 0
  · rw [if_pos h0, if_pos h0, lookup_map_snd]
    rfl
  · rw [if_neg h0, if_neg h0, lookup_map_snd]
    rfl

/-- Settles O5: the words are evaluated. -/
theorem sampleWordsDecode : Obligations.SampleWordsDecode := by
  unfold Obligations.SampleWordsDecode
  decide

/-- Settles O20: the handler decodes the word it is given, and a word without a row is the Fatal. -/
theorem decodeFailureIsFatal : Obligations.DecodeFailureIsFatal := by
  intro s f e hstall hinput hword
  simp only [decodeStage_eq s hstall, hinput, hword]

end Sys2Proof.Machine

/-! # The pipeline (spec 40_pipeline.md)

First the rules of the four stages of an instruction: what the issue and the retirement do to each reading of the
register file, when the decode stage stalls, which memory part an instruction has, and what the fetch handler answers.
Then what every step keeps, Fatal or not (`step_retires`), and what each handler of a safe cycle did
(`WritebackOutcome`, `DecodeOutcome`, `FetchOutcome`, put together in `step_outcome`). Then the list of the
instructions in flight: `FlightInv` says what the engine's invariant says of it, writeback takes its oldest
instruction off, decode puts one at its front, and the other handlers hand the rest on. Then the statements of this
family. -/

namespace Sys2Proof.Machine

/-! ### The issue and the retirement, seen through the register file -/

theorem issue_isPending (i : Instr) (f : Fetched) (s : State) (j : Nat) :
    (issue i f s).isPending j = true ↔
      s.isPending j = true ∨ (j ≠ 0 ∧ j < 34 ∧ (j = i.dst ∨ j = i.dst2)) := by
  rw [isPending_congr (issue_rf i f s), invalidate_isPending, invalidate_isPending]
  grind

theorem issue_readSlot (i : Instr) (f : Fetched) (s : State) (j : Nat) :
    (issue i f s).readSlot j = s.readSlot j := by
  rw [readSlot_congr (issue_rf i f s), invalidate_readSlot, invalidate_readSlot]

theorem issue_isWritten (i : Instr) (f : Fetched) (s : State) (j : Nat) :
    (issue i f s).isWritten j = s.isWritten j := by
  rw [isWritten_congr (issue_rf i f s), invalidate_isWritten, invalidate_isWritten]

/-- The issue touches nothing of the later stages (40 R116). -/
theorem issue_sameOutsideDecode (i : Instr) (f : Fetched) (s : State) :
    SameOutsideDecode s (issue i f s) := by
  simp [SameOutsideDecode, SameTraceBut]

/-- A stall touches nothing of the later stages (40 R116). -/
theorem holdBack_sameOutsideDecode (f : Fetched) (s : State) : SameOutsideDecode s (holdBack f s) := by
  simp [SameOutsideDecode, SameTraceBut, holdBack]

theorem retire_isPending (i : Instr) (r : InstrRecord) (s : State) (j : Nat) :
    (retire i r s).isPending j = true ↔ s.isPending j = true ∧ i.dst ≠ j ∧ i.dst2 ≠ j := by
  rw [isPending_congr (retire_rf i r s), setSlot_isPending, setSlot_isPending]
  grind

theorem retire_readSlot (i : Instr) (r : InstrRecord) (s : State) (j : Nat) :
    (retire i r s).readSlot j =
      if i.dst2 = j ∧ i.dst2 ≠ 0 ∧ i.dst2 < 34 then r.result2
      else if i.dst = j ∧ i.dst ≠ 0 ∧ i.dst < 34 then r.result else s.readSlot j := by
  rw [readSlot_congr (retire_rf i r s), setSlot_readSlot, setSlot_readSlot]

theorem retire_isWritten (i : Instr) (r : InstrRecord) (s : State) (j : Nat) :
    (retire i r s).isWritten j =
      if i.dst2 = j ∧ i.dst2 ≠ 0 ∧ i.dst2 < 34 then true
      else if i.dst = j ∧ i.dst ≠ 0 ∧ i.dst < 34 then true else s.isWritten j := by
  rw [isWritten_congr (retire_rf i r s), setSlot_isWritten, setSlot_isWritten]

/-- The retirement leaves every slot that is no destination of the instruction (40 R115). -/
theorem retire_sameSlot (i : Instr) (r : InstrRecord) (s : State) {j : Nat}
    (h : j = 0 ∨ (j ≠ i.dst ∧ j ≠ i.dst2)) : SameSlot s (retire i r s) j := by
  refine ⟨?_, ?_, ?_⟩
  · rw [retire_readSlot, if_neg (by omega), if_neg (by omega)]
  · rw [retire_isWritten, if_neg (by omega), if_neg (by omega)]
  · rcases h with rfl | ⟨hd, hd2⟩
    · rfl
    · rw [Bool.eq_iff_iff, retire_isPending]
      exact ⟨fun h => h.1, fun h => ⟨h, hd.symm, hd2.symm⟩⟩

/-- The retirement touches nothing of the other stages (40 R115). -/
theorem retire_sameOutsideWriteback (i : Instr) (r : InstrRecord) (s : State) :
    SameOutsideWriteback s (retire i r s) := by
  simp [SameOutsideWriteback, SameTraceBut]

/-- Only multiply and divide have a second destination; theirs are LO and HI (30 R88). -/
theorem destinations_of_dst2_ne_zero (i : Instr) (h : i.dst2 ≠ 0) : i.dst = 33 ∧ i.dst2 = 32 := by
  cases i <;> first | exact absurd rfl h | exact ⟨rfl, rfl⟩

/-- The destinations of a well-formed instruction are slots of the register file (10 R26, 30 R88). -/
theorem destinations_lt (i : Instr) (h : i.wellFormed = true) : i.dst < 34 ∧ i.dst2 < 34 := by
  have hdst : Laws.OperandOf i i.dst := by
    cases i <;> simp [Laws.OperandOf, Instr.dst, Instr.row, Instr.regNums]
  refine ⟨Laws.operandOf_lt i _ hdst h, ?_⟩
  by_cases h2 : i.dst2 = 0
  · omega
  · have := (destinations_of_dst2_ne_zero i h2).2
    omega

/-! ### The decode stage's choice (40 R116, R117) -/

theorem hazard_eq_true_iff (i : Instr) (s : State) :
    hazard i s = true ↔ s.isPending i.src1 = true ∨ s.isPending i.src2 = true ∨
      (s.params.wawInterlock = true ∧ (s.isPending i.dst = true ∨ s.isPending i.dst2 = true)) := by
  simp [hazard, or_assoc]

theorem hazard_eq_false_of {i : Instr} {s : State} (h1 : s.isPending i.src1 = false)
    (h2 : s.isPending i.src2 = false)
    (hwaw : s.params.wawInterlock = true → s.isPending i.dst = false ∧ s.isPending i.dst2 = false) :
    hazard i s = false := by
  rw [Bool.eq_false_iff, Ne, hazard_eq_true_iff]
  grind

theorem sourceCheck_of_unwritten {s : State} {k : Nat} (h : s.isWritten k = false) :
    s.sourceCheck k = some ⟨.uninitializedRegister, .slot k⟩ := by
  simp [State.sourceCheck, h]

theorem decodePart_of_hazard {i : Instr} {s : State} (f : Fetched) (h : hazard i s = true) :
    decodePart i f s = holdBack f s := by
  simp [decodePart, h]

theorem decodePart_of_src1_unwritten {i : Instr} {s : State} (f : Fetched) (hh : hazard i s = false)
    (h1 : s.isWritten i.src1 = false) :
    decodePart i f s = s.raise ⟨.uninitializedRegister, .slot i.src1⟩ := by
  simp [decodePart, hh, sourceCheck_of_unwritten h1]

theorem decodePart_of_src2_unwritten {i : Instr} {s : State} (f : Fetched) (hh : hazard i s = false)
    (h1 : s.isWritten i.src1 = true) (h2 : s.isWritten i.src2 = false) :
    decodePart i f s = s.raise ⟨.uninitializedRegister, .slot i.src2⟩ := by
  simp [decodePart, hh, (sourceCheck_eq_none s _).mpr h1, sourceCheck_of_unwritten h2]

theorem decodePart_of_ready {i : Instr} {s : State} (f : Fetched) (hh : hazard i s = false)
    (h1 : s.isWritten i.src1 = true) (h2 : s.isWritten i.src2 = true) :
    decodePart i f s = issue i f s := by
  simp [decodePart, hh, (sourceCheck_eq_none s _).mpr h1, (sourceCheck_eq_none s _).mpr h2]

/-! ### The writeback stage's choice (40 R115) -/

theorem writebackPart_of_dst_unpending {i : Instr} {s : State} (r : InstrRecord) (h0 : i.dst ≠ 0)
    (h : s.isPending i.dst = false) :
    writebackPart i r s = s.raise ⟨.pendingWriteViolation, .slot i.dst⟩ := by
  simp [writebackPart, (writeCheck_eq_some s i.dst _).mpr ⟨⟨h0, h⟩, rfl⟩]

theorem writebackPart_of_dst2_unpending {i : Instr} {s : State} (r : InstrRecord)
    (h : i.dst = 0 ∨ s.isPending i.dst = true) (h0 : i.dst2 ≠ 0) (h2 : s.isPending i.dst2 = false) :
    writebackPart i r s = s.raise ⟨.pendingWriteViolation, .slot i.dst2⟩ := by
  simp [writebackPart, (writeCheck_eq_none s i.dst).mpr h,
    (writeCheck_eq_some s i.dst2 _).mpr ⟨⟨h0, h2⟩, rfl⟩]

theorem writebackPart_of_pending {i : Instr} {s : State} (r : InstrRecord)
    (h : i.dst = 0 ∨ s.isPending i.dst = true) (h2 : i.dst2 = 0 ∨ s.isPending i.dst2 = true) :
    writebackPart i r s = retire i r s := by
  simp [writebackPart, (writeCheck_eq_none s i.dst).mpr h, (writeCheck_eq_none s i.dst2).mpr h2]

/-! ### The memory part of each instruction (40 R120) -/

/-- What an instruction does in the memory stage: loads and stores by name, every other one passes. -/
def memoryPartOf : Instr → MemoryPart
  | .lb _ _ _ => loadMemory fun v => sext8 (BitVec.ofNat 8 v)
  | .lh _ _ _ => loadMemory fun v => sext16 (BitVec.ofNat 16 v)
  | .lw _ _ _ => loadMemory fun v => BitVec.ofNat 32 v
  | .lbu _ _ _ => loadMemory fun v => zext8 (BitVec.ofNat 8 v)
  | .lhu _ _ _ => loadMemory fun v => zext16 (BitVec.ofNat 16 v)
  | .sb _ _ _ | .sh _ _ _ | .sw _ _ _ => storeMemory
  | _ => passMemory

theorem exec_eq_perform_memoryPartOf (i : Instr) (s : State) :
    ∃ compute, exec i s = perform i compute (memoryPartOf i) s := by
  cases i <;> exact ⟨_, rfl⟩

theorem memoryPartOf_of_not_load_not_store {i : Instr} (hl : i.isLoad = false) (hs : i.isStore = false) :
    memoryPartOf i = passMemory := by
  cases i <;> first | rfl | exact Bool.noConfusion hl | exact Bool.noConfusion hs

theorem memoryPartOf_of_not_store {i : Instr} (hs : i.isStore = false) :
    memoryPartOf i = passMemory ∨ ∃ extend, memoryPartOf i = loadMemory extend := by
  cases i <;> first | exact .inl rfl | exact .inr ⟨_, rfl⟩ | exact Bool.noConfusion hs

theorem exec_memory_eq {i : Instr} {s : State} {r : InstrRecord} (h : AtMemory s r) :
    exec i s = .next (memoryPart (memoryPartOf i) r s) := by
  obtain ⟨compute, he⟩ := exec_eq_perform_memoryPartOf i s
  obtain ⟨hstage, hport⟩ := h
  simp [he, perform, hstage, hport]

/-- A load changes no byte of memory, whether it completes or not (40 R120). -/
theorem memoryPart_load_mem (extend : Nat → Word) (r : InstrRecord) (s : State) :
    (memoryPart (loadMemory extend) r s).mem = s.mem := by
  unfold memoryPart loadMemory
  cases memRead s .unmappedLoad r.addr.toNat r.width <;> simp

theorem memoryPartOf_keeps_mem {i : Instr} (hs : i.isStore = false) (r : InstrRecord) (s : State) :
    (memoryPart (memoryPartOf i) r s).mem = s.mem := by
  rcases memoryPartOf_of_not_store hs with h | ⟨extend, h⟩ <;> rw [h]
  · rfl
  · exact memoryPart_load_mem extend r s

/-- A write changes memory only. -/
theorem memWrite_eq_with_mem {s t : State} {a n v : Nat} (h : memWrite s a n v = .ok t) :
    t = { s with mem := t.mem } := by
  obtain ⟨rfl, -⟩ := memWrite_ok _ _ _ _ _ h
  rfl

/-! ### The fetch handler (40 R118) -/

theorem fetchIsStalled_iff (s : State) :
    FetchIsStalled s ↔ s.d2f.readStall s.params.stallLatency = some true := by
  unfold FetchIsStalled
  cases s.params.stallLatency <;> simp [Port.readStall]

theorem fetchStage_of_idle {s : State} (h : FetchIsStalled s ∨ s.pcValid = false) :
    fetchStage s = .next { s with stage := .fetch, trace := { s.trace with fetch := none } } := by
  rw [fetchIsStalled_iff] at h
  exact if_pos h

theorem fetchStage_of_read_error {s : State} {stop : Stop} (h : ¬ FetchIsStalled s) (hv : s.pcValid = true)
    (hr : memRead s .unmappedFetch s.pc.toNat 4 = .error stop) :
    fetchStage s = .next (State.raise { s with stage := .fetch } stop) := by
  rw [fetchIsStalled_iff] at h
  have hm : memRead { s with stage := .fetch } .unmappedFetch s.pc.toNat Config.instrBytes = .error stop :=
    (memRead_congr rfl rfl _ _ _).trans hr
  have active : ¬ (s.d2f.readStall s.params.stallLatency = some true ∨ s.pcValid = false) := by simp [h, hv]
  simp only [fetchStage, if_neg active, hm]

theorem fetchStage_of_read_ok {s : State} {v : Nat} (h : ¬ FetchIsStalled s) (hv : s.pcValid = true)
    (hr : memRead s .unmappedFetch s.pc.toNat 4 = .ok v) :
    fetchStage s = .next { s with
      stage := .fetch
      f2d := s.f2d.write ⟨BitVec.ofNat 32 v, s.pc⟩
      trace := { s.trace with fetch := some ⟨BitVec.ofNat 32 v, s.pc⟩ } } := by
  rw [fetchIsStalled_iff] at h
  have hm : memRead { s with stage := .fetch } .unmappedFetch s.pc.toNat Config.instrBytes = .ok v :=
    (memRead_congr rfl rfl _ _ _).trans hr
  have active : ¬ (s.d2f.readStall s.params.stallLatency = some true ∨ s.pcValid = false) := by simp [h, hv]
  simp only [fetchStage, if_neg active, hm]

theorem toNat_append_bytes (b0 b1 b2 b3 : Byte) :
    (b3 ++ b2 ++ b1 ++ b0).toNat = b0.toNat + 256 * (b1.toNat + 256 * (b2.toNat + 256 * b3.toNat)) := by
  simp only [BitVec.toNat_append]
  rw [← Nat.shiftLeft_add_eq_or_of_lt b0.isLt, ← Nat.shiftLeft_add_eq_or_of_lt b1.isLt,
    ← Nat.shiftLeft_add_eq_or_of_lt b2.isLt]
  simp only [Nat.shiftLeft_eq]
  omega

theorem memRead_succ_of {s : State} {c : Cause} {a n v : Nat} {b : Byte} (ha : a < Config.addrSpace)
    (hb : s.byteAt a = some b) (hr : memRead s c (a + 1) n = .ok v) :
    memRead s c a (n + 1) = .ok (b.toNat + 256 * v) := by
  simp [memRead, Nat.not_le.mpr ha, hb, hr]

/-- A read of four bytes is the word whose lowest byte stands first (20 R57). -/
theorem memRead_four_bytes {s : State} (c : Cause) {a : Nat} {b0 b1 b2 b3 : Byte}
    (ha : a + 4 ≤ Config.addrSpace) (h0 : s.byteAt a = some b0) (h1 : s.byteAt (a + 1) = some b1)
    (h2 : s.byteAt (a + 2) = some b2) (h3 : s.byteAt (a + 3) = some b3) :
    memRead s c a 4 = .ok (b3 ++ b2 ++ b1 ++ b0).toNat := by
  rw [toNat_append_bytes]
  exact memRead_succ_of (by omega) h0 <| memRead_succ_of (by omega) h1 <|
    memRead_succ_of (by omega) h2 <| memRead_succ_of (v := 0) (by omega) h3 rfl

/-! ### The handlers of a cycle -/

theorem chain_of_safe {s : State} (h : s.fatal = none) (k : State → Result) : chain (.next s) k = k s := by
  simp [chain, h]

theorem decodeStage_of_decoded {s : State} {f : Fetched} {i : Instr}
    (hstall : s.e2d.readStall s.params.stallLatency ≠ some true) (hinput : s.decodeInput = some f)
    (hdecode : decodeWord f.word = .ok i) : decodeStage s = exec i { s with stage := .decode } := by
  have hin : State.decodeInput { s with stage := .decode } = some f := hinput
  simp only [decodeStage, if_neg hstall, hin, hdecode]

/-! ### What every step keeps: the parameters, the target and the count (40 R115, R125, R129) -/

/-- The parameters and the target of the run and the number of retired instructions are the same in both states. -/
structure SameRun (s t : State) : Prop where
  params : t.params = s.params
  target : t.target = s.target
  retired : t.retired = s.retired

/-- Whatever next state `f` answers, nothing has retired in it and the run is the same. -/
def KeepsRun (f : State → Result) : Prop :=
  ∀ s t, f s = .next t → SameRun s t

theorem SameRun.trans {s t u : State} (h : SameRun s t) (k : SameRun t u) : SameRun s u :=
  ⟨k.params.trans h.params, k.target.trans h.target, k.retired.trans h.retired⟩

/-- Which handler is running is no part of the run. -/
theorem SameRun.of_stage {s t : State} {stage : Stage} (h : SameRun { s with stage := stage } t) : SameRun s t :=
  ⟨h.params, h.target, h.retired⟩

theorem KeepsRun.chain {f g : State → Result} (hf : KeepsRun f) (hg : KeepsRun g) :
    KeepsRun fun s => chain (f s) g := by
  intro s t h
  rcases (chain_next _ _ _).mp h with ⟨hft, -⟩ | ⟨u, hfu, -, hgt⟩
  · exact hf s t hft
  · exact (hf s u hfu).trans (hg u t hgt)

theorem decodePart_sameRun (i : Instr) (f : Fetched) (s : State) : SameRun s (decodePart i f s) := by
  rcases decodePart_cases i f s with ⟨-, h⟩ | ⟨-, stop, h⟩ | ⟨-, -, -, h⟩ <;>
    (rw [h]; constructor <;> simp)

theorem executePart_sameRun (compute : ExecutePart) (r : InstrRecord) (s : State) :
    SameRun s (executePart compute r s) := by
  unfold executePart
  split <;> constructor <;> simp

theorem memoryPart_sameRun {access : MemoryPart} (ha : AccessShape access) (r : InstrRecord) (s : State) :
    SameRun s (memoryPart access r s) := by
  rcases memoryPart_cases access ha r s with ⟨stop, h⟩ | ⟨s', r', h, -, rfl | hs⟩ <;> rw [h]
  · constructor <;> simp
  · constructor <;> simp
  · rw [memWrite_eq_with_mem hs]
    constructor <;> simp

theorem bubble_sameRun (s : State) : SameRun s s.bubble := by
  constructor <;> simp

/-- An instruction retires in the writeback stage only (10 R31). -/
theorem exec_sameRun {i : Instr} {s t : State} (hs : s.stage ≠ .writeback) (h : exec i s = .next t) :
    SameRun s t := by
  obtain ⟨compute, access, he, -, ha⟩ := exec_eq_perform i s
  rw [he, perform] at h
  cases hstage : s.stage <;> simp only [hstage] at h
  case writeback => exact absurd hstage hs
  case decode =>
    split at h <;> cases h
    · exact decodePart_sameRun i _ s
    · exact bubble_sameRun s
  case fetch => cases h; exact ⟨rfl, rfl, rfl⟩
  case execute =>
    split at h <;> cases h
    · exact executePart_sameRun compute _ s
    · exact bubble_sameRun s
  case memory =>
    split at h <;> cases h
    · exact memoryPart_sameRun ha _ s
    · exact bubble_sameRun s
  case loader => cases h; exact ⟨rfl, rfl, rfl⟩

theorem decodeStage_keepsRun : KeepsRun decodeStage := by
  intro s t h
  unfold decodeStage at h
  dsimp only at h
  split at h
  · cases h; constructor <;> simp
  · split at h
    · cases h; constructor <;> simp
    · split at h
      · cases h; constructor <;> simp
      · exact (exec_sameRun (by simp) h).of_stage

theorem fetchStage_keepsRun : KeepsRun fetchStage := by
  intro s t h
  rcases fetchStage_cases s with ⟨-, he⟩ | ⟨stop, he⟩ | ⟨-, v, -, he⟩ <;>
    (rw [he] at h; cases h; constructor <;> simp)

theorem executeStage_keepsRun : KeepsRun executeStage := by
  intro s t h
  unfold executeStage at h
  dsimp only at h
  split at h
  · cases h; constructor <;> simp
  · split at h
    · cases h; constructor <;> simp
    · exact (exec_sameRun (by simp) h).of_stage

theorem memoryStage_keepsRun : KeepsRun memoryStage := by
  intro s t h
  unfold memoryStage at h
  dsimp only at h
  split at h
  · cases h; constructor <;> simp
  · split at h
    · cases h; constructor <;> simp
    · exact (exec_sameRun (by simp) h).of_stage

/-- The writeback handler keeps the run and retires at most the instruction in M2W (40 R115). -/
theorem writebackStage_retires {s t : State} (h : writebackStage s = .next t) :
    t.params = s.params ∧ t.target = s.target ∧
      (t.retired = s.retired ∨ (t.retired = s.retired + 1#64 ∧ s.m2w.out.isSome = true)) := by
  rw [writebackStage_eq] at h
  cases hr : s.m2w.out with
  | none => simp only [hr] at h; cases h; simp
  | some r =>
    simp only [hr] at h
    rcases writebackPart_cases r.op r { s with stage := .writeback } with ⟨stop, he⟩ | ⟨-, -, he⟩ <;>
      (rw [he] at h; cases h; simp)

theorem step_retires {s t : State} (h : step s = .next t) :
    t.params = s.params ∧ t.target = s.target ∧
      (t.retired = s.retired ∨ (t.retired = s.retired + 1#64 ∧ s.m2w.out.isSome = true)) := by
  unfold step at h
  split at h
  case isFalse => cases h; exact ⟨rfl, rfl, .inl rfl⟩
  have hend : KeepsRun fun s => .next (endCycle s) := fun s t h => by cases h; exact ⟨rfl, rfl, rfl⟩
  have hrest := decodeStage_keepsRun.chain <| fetchStage_keepsRun.chain <| executeStage_keepsRun.chain <|
    memoryStage_keepsRun.chain hend
  rcases (chain_next _ _ _).mp h with ⟨hwb, -⟩ | ⟨a, hwb, -, hk⟩
  · exact writebackStage_retires (s := startCycle s) hwb
  · obtain ⟨hp, ht, hr⟩ := writebackStage_retires (s := startCycle s) hwb
    obtain ⟨kp, kt, kr⟩ := hrest a t hk
    exact ⟨kp.trans hp, kt.trans ht, kr ▸ hr⟩

theorem step_retired_le_succ {s t : State} (h : step s = .next t) : t.retired.toNat ≤ s.retired.toNat + 1 := by
  obtain ⟨-, -, hr | ⟨hr, -⟩⟩ := step_retires h <;> rw [hr]
  · omega
  · rw [BitVec.toNat_add]
    exact Nat.mod_le _ _

/-- A step of a run that has ended changes nothing (60 R272, R281). -/
theorem step_ended {s : State} (h : ¬ s.isRunning = true) : step s = .next s := by
  simp [step, h]

theorem step_retired_le_target {s t : State} (h : step s = .next t) (hs : s.retired.toNat ≤ s.target.toNat) :
    t.retired.toNat ≤ t.target.toNat := by
  obtain ⟨-, htarget, -⟩ := step_retires h
  rw [htarget]
  by_cases hrun : s.isRunning = true
  · have hlt := ((isRunning_iff s).mp hrun).2
    have hle := step_retired_le_succ h
    omega
  · rw [step_ended hrun] at h
    cases h
    exact hs

/-- A Fatal stays (60 R272): a step that ends safe began safe. -/
theorem step_safe_from {s t : State} (h : step s = .next t) (ht : t.isSafe) : s.isSafe := by
  by_cases hrun : s.isRunning = true
  · exact ((isRunning_iff s).mp hrun).1
  · rw [step_ended hrun] at h
    cases h
    exact ht

/-! ### What the handlers of a safe cycle did -/

theorem raise_not_safe (s : State) (stop : Stop) : (s.raise stop).fatal ≠ none := by
  intro h
  have hsome := raise_isSome s stop
  simp [h] at hsome

theorem Port.updateStall_out_of_written_none {p : Port Bool} (h : p.written = none) (l : StallLatency) :
    (p.updateStall l).out = none := by
  cases l <;> simp [Port.updateStall, h]

/-- What the writeback handler can have done in a cycle that raised no Fatal (40 R115). -/
inductive WritebackOutcome (s : State) : State → Prop where
  | bubble (hr : s.m2w.out = none) : WritebackOutcome s (State.bubble { s with stage := .writeback })
  | retire (r : InstrRecord) (hr : s.m2w.out = some r) :
      WritebackOutcome s (retire r.op r { s with stage := .writeback })

/-- What the decode handler can have done in a cycle that raised no Fatal (40 R116). -/
inductive DecodeOutcome (s : State) : State → Prop where
  | bubble (hin : s.decodeInput = none) : DecodeOutcome s (State.bubble { s with stage := .decode })
  | stall (f : Fetched) (i : Instr) (hin : s.decodeInput = some f) (hw : decodeWord f.word = .ok i)
      (hh : hazard i s = true) : DecodeOutcome s (holdBack f { s with stage := .decode })
  | issue (f : Fetched) (i : Instr) (hin : s.decodeInput = some f) (hw : decodeWord f.word = .ok i) :
      DecodeOutcome s (issue i f { s with stage := .decode })

/-- What the fetch handler has fetched in a cycle that raised no Fatal (40 R118): a word at the pc, and one for
certain unless it is stalled or the pc is invalid. -/
structure FetchOutcome (s : State) (g : Option Fetched) : Prop where
  atPc : ∀ f, g = some f → s.pcValid = true ∧ f.pc = s.pc
  fetches : ¬ FetchIsStalled s → s.pcValid = true → g.isSome = true

/-- The state after a fetch handler that has fetched `g`. -/
def fetched (g : Option Fetched) (s : State) : State :=
  { s with stage := .fetch, f2d := ⟨s.f2d.out, g⟩, trace := { s.trace with fetch := g } }

/-- The state after an execute handler that has sent `x` on. -/
def executed (x : Option InstrRecord) (s : State) : State :=
  { s with
    stage := .execute
    e2m := ⟨s.e2m.out, x⟩
    trace := { s.trace with execute := x.getD InstrRecord.null } }

/-- The state after a memory handler that has sent `y` on and left the memory `m`. -/
def accessed (y : Option InstrRecord) (m : Memory) (s : State) : State :=
  { s with
    stage := .memory
    m2w := ⟨s.m2w.out, y⟩
    mem := m
    trace := { s.trace with memory := y.getD InstrRecord.null } }

theorem Port.eq_of_written_none {α : Type} {p : Port α} (h : p.written = none) : ⟨p.out, none⟩ = p := by
  rw [← h]

theorem writebackStage_outcome {s t : State} (h : writebackStage s = .next t) (ht : t.fatal = none) :
    WritebackOutcome s t := by
  rw [writebackStage_eq] at h
  cases hr : s.m2w.out with
  | none => simp only [hr] at h; cases h; exact .bubble hr
  | some r =>
    simp only [hr] at h
    rcases writebackPart_cases r.op r { s with stage := .writeback } with ⟨stop, he⟩ | ⟨-, -, he⟩ <;>
      (rw [he] at h; cases h)
    · exact absurd ht (raise_not_safe _ _)
    · exact .retire r hr

theorem decodeStage_outcome {s t : State} (he2d : s.e2d = Port.empty) (h : decodeStage s = .next t)
    (ht : t.fatal = none) : DecodeOutcome s t := by
  rw [decodeStage_eq s (by simp [he2d])] at h
  cases hin : s.decodeInput with
  | none => simp only [hin] at h; cases h; exact .bubble hin
  | some f =>
    cases hw : decodeWord f.word with
    | error e => simp only [hin, hw] at h; cases h; exact absurd ht (raise_not_safe _ _)
    | ok i =>
      simp only [hin, hw] at h
      rcases decodePart_cases i f { s with stage := .decode } with
        ⟨hh, he⟩ | ⟨-, stop, he⟩ | ⟨-, -, -, he⟩ <;> (rw [he] at h; cases h)
      · exact .stall f i hin hw hh
      · exact absurd ht (raise_not_safe _ _)
      · exact .issue f i hin hw

theorem fetchStage_outcome {s t : State} (h : fetchStage s = .next t) (ht : t.fatal = none)
    (hs : s.f2d.written = none) : ∃ g, FetchOutcome s g ∧ t = fetched g s := by
  by_cases hidle : FetchIsStalled s ∨ s.pcValid = false
  · rw [fetchStage_of_idle hidle] at h
    cases h
    refine ⟨none, ⟨nofun, fun hstall hv => ?_⟩, by rw [fetched, Port.eq_of_written_none hs]⟩
    simp [hstall, hv] at hidle
  · simp only [not_or, Bool.not_eq_false] at hidle
    obtain ⟨hstall, hv⟩ := hidle
    cases hr : memRead s .unmappedFetch s.pc.toNat 4 with
    | error stop =>
      rw [fetchStage_of_read_error hstall hv hr] at h
      cases h
      exact absurd ht (raise_not_safe _ _)
    | ok v =>
      rw [fetchStage_of_read_ok hstall hv hr] at h
      cases h
      refine ⟨some ⟨BitVec.ofNat 32 v, s.pc⟩, ⟨fun f hf => ?_, fun _ _ => rfl⟩, rfl⟩
      cases hf
      exact ⟨hv, rfl⟩

theorem executeStage_outcome {s t : State} (h : executeStage s = .next t) (ht : t.fatal = none)
    (hm2e : s.m2e = Port.empty) (hs : s.e2m.written = none) :
    ∃ x, Option.Rel SameInstruction s.d2e.out x ∧ t = executed x s := by
  rcases executeStage_cases s (by simp [hm2e]) with
    ⟨hr, he⟩ | ⟨r, hr, -, ⟨stop, he⟩ | ⟨r', he, hsame⟩⟩ <;> (rw [he] at h; cases h; rw [hr])
  · exact ⟨none, .none, by rw [executed, Port.eq_of_written_none hs]; rfl⟩
  · exact absurd ht (raise_not_safe _ _)
  · exact ⟨some r', .some hsame, rfl⟩

theorem memoryStage_outcome {s t : State} (h : memoryStage s = .next t) (ht : t.fatal = none)
    (hw2m : s.w2m = Port.empty) (hs : s.m2w.written = none) :
    ∃ y m, Option.Rel SameInstruction s.e2m.out y ∧ t = accessed y m s := by
  rcases memoryStage_cases s (by simp [hw2m]) with
    ⟨hr, he⟩ | ⟨r, hr, -, ⟨stop, he⟩ | ⟨s', r', he, hsame, hs'⟩⟩ <;> (rw [he] at h; cases h; rw [hr])
  · exact ⟨none, s.mem, .none, by rw [accessed, Port.eq_of_written_none hs]; rfl⟩
  · exact absurd ht (raise_not_safe _ _)
  · refine ⟨some r', s'.mem, .some hsame, ?_⟩
    rcases hs' with rfl | hw
    · rfl
    · rw [memWrite_eq_with_mem hw]
      rfl

/-- The end of a cycle in which the handlers after decode, whose state is `b`, have fetched `g`, sent `x` to the
memory stage and `y` to the writeback stage, and left the memory `m`. -/
def afterCycle (b : State) (g : Option Fetched) (x y : Option InstrRecord) (m : Memory) : State :=
  endCycle (accessed y m (executed x (fetched g b)))

section AfterCycle

variable (b : State) (g : Option Fetched) (x y : Option InstrRecord) (m : Memory)

@[simp] theorem afterCycle_rf : (afterCycle b g x y m).rf = b.rf := rfl
@[simp] theorem afterCycle_pc : (afterCycle b g x y m).pc = b.pc := rfl
@[simp] theorem afterCycle_pcValid : (afterCycle b g x y m).pcValid = b.pcValid := rfl
@[simp] theorem afterCycle_retired : (afterCycle b g x y m).retired = b.retired := rfl
@[simp] theorem afterCycle_hold : (afterCycle b g x y m).hold = b.hold := rfl
@[simp] theorem afterCycle_stage : (afterCycle b g x y m).stage = .writeback := rfl
@[simp] theorem afterCycle_f2d : (afterCycle b g x y m).f2d = ⟨g, none⟩ := rfl
@[simp] theorem afterCycle_d2e : (afterCycle b g x y m).d2e = b.d2e.update := rfl
@[simp] theorem afterCycle_e2m : (afterCycle b g x y m).e2m = ⟨x, none⟩ := rfl
@[simp] theorem afterCycle_m2w : (afterCycle b g x y m).m2w = ⟨y, none⟩ := rfl
@[simp] theorem afterCycle_d2f :
    (afterCycle b g x y m).d2f = b.d2f.updateStall b.params.stallLatency := rfl
@[simp] theorem afterCycle_e2d :
    (afterCycle b g x y m).e2d = b.e2d.updateStall b.params.stallLatency := rfl
@[simp] theorem afterCycle_m2e :
    (afterCycle b g x y m).m2e = b.m2e.updateStall b.params.stallLatency := rfl
@[simp] theorem afterCycle_w2m :
    (afterCycle b g x y m).w2m = b.w2m.updateStall b.params.stallLatency := rfl
@[simp] theorem afterCycle_trace_writeback :
    (afterCycle b g x y m).trace.writeback = b.trace.writeback := rfl

end AfterCycle

/-- What the writeback and the decode handler leave of the ports they only read or never touch. -/
structure SamePorts (s t : State) : Prop where
  f2d : t.f2d = s.f2d
  e2m : t.e2m = s.e2m
  m2w : t.m2w = s.m2w
  e2d : t.e2d = s.e2d
  m2e : t.m2e = s.m2e
  w2m : t.w2m = s.w2m
  d2eOut : t.d2e.out = s.d2e.out
  d2fOut : t.d2f.out = s.d2f.out

theorem WritebackOutcome.samePorts {s a : State} (h : WritebackOutcome s a) : SamePorts s a := by
  cases h <;> constructor <;> simp

theorem DecodeOutcome.samePorts {a b : State} (h : DecodeOutcome a b) : SamePorts a b := by
  cases h <;> constructor <;> simp

/-- What a safe cycle did: writeback, decode, and the three handlers after them. -/
theorem step_outcome {s t : State} (hi : EngineInv s) (hrun : s.isRunning = true) (h : step s = .next t)
    (ht : t.isSafe) :
    ∃ a b g x y m, WritebackOutcome (startCycle s) a ∧ DecodeOutcome a b ∧ FetchOutcome b g ∧
      Option.Rel SameInstruction s.d2e.out x ∧ Option.Rel SameInstruction s.e2m.out y ∧
      t = afterCycle b g x y m := by
  rw [step_running s hrun] at h
  obtain ⟨a, b, c, d, e, ha, haf, hb, hbf, hc, hcf, hd, hdf, he, hef, rfl⟩ := runCycle_safe s t h ht
  obtain ⟨hf2d, -, he2m, hm2w⟩ := hi.dataPorts
  obtain ⟨he2d, hm2e, hw2m⟩ := hi.stallPorts
  have oa := writebackStage_outcome ha haf
  have pa := oa.samePorts
  have ob := decodeStage_outcome (pa.e2d.trans he2d) hb hbf
  have pb := ob.samePorts
  have bd2e : b.d2e.out = s.d2e.out := pb.d2eOut.trans pa.d2eOut
  have be2m : b.e2m = s.e2m := pb.e2m.trans pa.e2m
  have bm2w : b.m2w = s.m2w := pb.m2w.trans pa.m2w
  obtain ⟨g, og, rfl⟩ := fetchStage_outcome hc hcf (by rw [pb.f2d, pa.f2d]; exact hf2d)
  obtain ⟨x, hx, rfl⟩ :=
    executeStage_outcome hd hdf ((pb.m2e.trans pa.m2e).trans hm2e) (by rw [← he2m, ← be2m]; rfl)
  obtain ⟨y, m, hy, rfl⟩ :=
    memoryStage_outcome he hef ((pb.w2m.trans pa.w2m).trans hw2m) (by rw [← hm2w, ← bm2w]; rfl)
  exact ⟨a, b, g, x, y, m, oa, ob, og, bd2e ▸ hx, be2m ▸ hy, rfl⟩

/-! ### The instructions in flight (40 R122 to R124, R128, R132) -/

/-- What no stage changes of an instruction: its word and its operation (10 R38). -/
def InstrRecord.identity (r : InstrRecord) : Word × Instr := (r.word, r.op)

/-- The identity of the instruction in a port, as a list of at most one. -/
def occupant (p : Option InstrRecord) : List (Word × Instr) := (p.map InstrRecord.identity).toList

/-- The instructions in flight at the start of a cycle, the youngest first (00 R13). -/
def State.flight (s : State) : List (Word × Instr) :=
  occupant s.d2e.out ++ (occupant s.e2m.out ++ occupant s.m2w.out)

@[simp] theorem occupant_none : occupant none = [] := rfl
@[simp] theorem occupant_some (r : InstrRecord) : occupant (some r) = [(r.word, r.op)] := rfl

theorem flight_eq_map (s : State) : s.flight = s.inFlight.map InstrRecord.identity := by
  simp [State.flight, State.inFlight, occupant, Option.toList_map]

/-- A stage hands on the instruction it was given (40 R121). -/
theorem occupant_eq {x y : Option InstrRecord} (h : Option.Rel SameInstruction x y) :
    occupant y = occupant x := by
  cases h with
  | none => rfl
  | some hsame =>
    obtain ⟨hword, -, hop, -, -⟩ := hsame
    simp [hword, hop]

/-- A jump is among the instructions of the list (40 R124). -/
def HasJump (flight : List (Word × Instr)) : Prop :=
  ∃ p ∈ flight, p.2.isJump = true

theorem jumpInFlight_iff (s : State) : s.jumpInFlight ↔ HasJump s.flight := by
  simp [State.jumpInFlight, HasJump, flight_eq_map, InstrRecord.identity]

theorem pairwise_occupant (p : Option InstrRecord) (R : Word × Instr → Word × Instr → Prop) :
    (occupant p).Pairwise R := by
  cases p <;> simp

/-- No instruction behind the occupant of `d` is a jump: if the one of `e` is, then `d` is empty. -/
theorem forall_occupant_not_jump_iff (d e : Option InstrRecord) :
    (∀ p ∈ occupant d, ∀ q ∈ occupant e, q.2.isJump = false) ↔
      ∀ r, e = some r → r.op.isJump = true → d = none := by
  cases d with
  | none => simp
  | some d =>
    cases e with
    | none => simp
    | some r => simp

/-- Only the youngest of the instructions in three ports may be a jump, port by port (40 R124). -/
theorem pairwise_flight_iff (d e m : Option InstrRecord) :
    (occupant d ++ (occupant e ++ occupant m)).Pairwise (fun _ old => old.2.isJump = false) ↔
      (∀ r, e = some r → r.op.isJump = true → d = none) ∧
        (∀ r, m = some r → r.op.isJump = true → d = none ∧ e = none) := by
  simp only [List.pairwise_append, pairwise_occupant, List.forall_mem_append, imp_and, forall_and,
    forall_occupant_not_jump_iff, true_and]
  exact ⟨fun ⟨hem, hde, hdm⟩ => ⟨hde, hdm, hem⟩, fun ⟨hde, hdm, hem⟩ => ⟨hem, hde, hdm⟩⟩

/-- The invariant of the engine at any point between two handlers, where `flight` are the instructions that have
been issued and have not retired, the youngest first. -/
structure FlightInv (s : State) (flight : List (Word × Instr)) : Prop where
  /-- the pc is invalid exactly while a jump is in flight (40 R124) -/
  pcValidity : s.pcValid = false ↔ HasJump flight
  /-- an instruction older than another one is no jump (40 R124) -/
  jumpYoungest : flight.Pairwise fun _ old => old.2.isJump = false
  /-- a held word was fetched at the current pc, which is valid, and has decoded (40 R123, R128) -/
  held : ∀ f, s.hold = some f → f.pc = s.pc ∧ s.pcValid = true ∧ ∃ i, decodeWord f.word = .ok i
  /-- a slot is pending only while an instruction in flight has it as destination (40 R132) -/
  pending : ∀ k, s.isPending k = true → ∃ p ∈ flight, p.2.dst = k ∨ p.2.dst2 = k
  /-- an instruction in flight is what the decoder makes of its word (40 R128) -/
  decoded : ∀ p ∈ flight, decodeWord p.1 = .ok p.2

/-- The invariant reads the register file, the pc, its validity and the hold register only. -/
theorem FlightInv.congr {s t : State} {flight : List (Word × Instr)} (h : FlightInv s flight) (hrf : t.rf = s.rf)
    (hpc : t.pc = s.pc) (hvalid : t.pcValid = s.pcValid) (hhold : t.hold = s.hold) : FlightInv t flight where
  pcValidity := hvalid ▸ h.pcValidity
  jumpYoungest := h.jumpYoungest
  held := by rw [hhold, hpc, hvalid]; exact h.held
  pending k hk := h.pending k (isPending_congr hrf k ▸ hk)
  decoded := h.decoded

theorem FlightInv.no_jump {s : State} {flight : List (Word × Instr)} (h : FlightInv s flight)
    (hv : s.pcValid = true) : ∀ p ∈ flight, p.2.isJump = false := by
  intro p hp
  by_contra hj
  rw [Bool.not_eq_false] at hj
  have hinvalid := h.pcValidity.mpr ⟨p, hp, hj⟩
  simp [hv] at hinvalid

/-- With nothing in flight no slot is pending, so nothing stalls (40 R132). -/
theorem FlightInv.not_hazard {s : State} (h : FlightInv s []) (i : Instr) : hazard i s = false := by
  have hp : ∀ k, s.isPending k = false := fun k => by
    by_contra hk
    rw [Bool.not_eq_false] at hk
    obtain ⟨p, hmem, -⟩ := h.pending k hk
    exact absurd hmem List.not_mem_nil
  exact hazard_eq_false_of (hp _) (hp _) fun _ => ⟨hp _, hp _⟩

/-- Writeback takes the oldest instruction off: a jump leaves nothing in flight and makes the pc valid, and the
destinations are no longer pending (40 R115). -/
theorem FlightInv.retire {s : State} {flight : List (Word × Instr)} {r : InstrRecord}
    (h : FlightInv s (flight ++ [(r.word, r.op)])) : FlightInv (retire r.op r s) flight := by
  obtain ⟨young, -, alone⟩ := List.pairwise_append.mp h.jumpYoungest
  have flight_nil : r.op.isJump = true → flight = [] := fun hj =>
    List.eq_nil_iff_forall_not_mem.mpr fun p hp => by
      have := alone p hp _ (List.mem_singleton_self _)
      simp [hj] at this
  refine ⟨?pcValidity, young, fun f hf => ?held, fun k hk => ?pending,
    fun p hp => h.decoded p (List.mem_append_left _ hp)⟩
  case pcValidity =>
    cases hj : r.op.isJump with
    | true => simp [hj, flight_nil hj, HasJump]
    | false => simpa [hj, HasJump, or_and_right, exists_or] using h.pcValidity
  case held =>
    obtain ⟨hpc, hvalid, hdecoded⟩ := h.held f (by simpa using hf)
    have hj : r.op.isJump = false := h.no_jump hvalid (r.word, r.op) (by simp)
    exact ⟨by simpa [hj] using hpc, by simpa [hj] using hvalid, hdecoded⟩
  case pending =>
    obtain ⟨hs, hd, hd2⟩ := (retire_isPending _ _ _ _).mp hk
    obtain ⟨p, hp, hdst⟩ := h.pending k hs
    rcases List.mem_append.mp hp with hp | hp
    · exact ⟨p, hp, hdst⟩
    · obtain rfl := List.mem_singleton.mp hp
      exact absurd hdst (not_or.mpr ⟨hd, hd2⟩)

/-- The issue puts the instruction at the front: it goes out only when no jump is in flight, so it is the only jump
if it is one, and its destinations are pending from then on (40 R116). -/
theorem FlightInv.issue {s : State} {flight : List (Word × Instr)} {f : Fetched} {i : Instr}
    (h : FlightInv s flight) (hv : s.pcValid = true) (hw : decodeWord f.word = .ok i) :
    FlightInv (issue i f s) ((f.word, i) :: flight) := by
  have hnone := h.no_jump hv
  refine ⟨?pcValidity, List.pairwise_cons.mpr ⟨hnone, h.jumpYoungest⟩, fun g hg => ?held, fun k hk => ?pending,
    List.forall_mem_cons.mpr ⟨hw, h.decoded⟩⟩
  case pcValidity =>
    cases hj : i.isJump with
    | true => simp [hj, HasJump]
    | false => simpa [hj, HasJump] using h.pcValidity
  case held => simp at hg
  case pending =>
    rcases (issue_isPending _ _ _ _).mp hk with hs | ⟨-, -, hdst⟩
    · obtain ⟨p, hp, hdst⟩ := h.pending k hs
      exact ⟨p, List.mem_cons_of_mem _ hp, hdst⟩
    · exact ⟨(f.word, i), List.mem_cons_self, hdst.imp Eq.symm Eq.symm⟩

/-- A stall holds the word, which waits at the pc, and issues nothing (40 R116). -/
theorem FlightInv.holdBack {s : State} {flight : List (Word × Instr)} {f : Fetched} {i : Instr}
    (h : FlightInv s flight) (hv : s.pcValid = true) (hpc : f.pc = s.pc) (hw : decodeWord f.word = .ok i) :
    FlightInv (holdBack f s) flight where
  pcValidity := h.pcValidity
  jumpYoungest := h.jumpYoungest
  held g hg := by
    obtain rfl : f = g := Option.some.inj hg
    exact ⟨hpc, hv, i, hw⟩
  pending := h.pending
  decoded := h.decoded

/-! ### The invariant through a cycle -/

/-- What waits to be decoded was fetched at the pc, and the pc is valid (40 R123, R124). -/
def InputAtPc (s : State) : Prop :=
  ∀ f, s.decodeInput = some f → f.pc = s.pc ∧ s.pcValid = true

theorem EngineInv.flightInv {s : State} (h : EngineInv s) : FlightInv s s.flight where
  pcValidity := h.pcValidity.trans (jumpInFlight_iff s)
  jumpYoungest := (pairwise_flight_iff _ _ _).mpr h.jumpYoungest
  held f hf := by
    obtain ⟨-, hpc⟩ := h.fetchAddress
    refine ⟨hpc f hf, ?_, h.holdDecoded f hf⟩
    by_contra hv
    rw [Bool.not_eq_true] at hv
    obtain ⟨hhold, -, -⟩ := h.jumpAlone (h.pcValidity.mp hv)
    simp [hhold] at hf
  pending k hk := by
    obtain ⟨r, hr, hdst⟩ := h.pendingInFlight k hk
    exact ⟨r.identity, flight_eq_map s ▸ List.mem_map_of_mem hr, hdst⟩
  decoded p hp := by
    rw [flight_eq_map] at hp
    obtain ⟨r, hr, rfl⟩ := List.mem_map.mp hp
    exact h.recordsDecoded r hr

/-- While a jump is in flight the decode stage has nothing to work on (40 R124). -/
theorem EngineInv.decodeInput_eq_none {s : State} (h : EngineInv s) (hj : s.jumpInFlight) :
    s.decodeInput = none := by
  obtain ⟨hhold, hf2d, -⟩ := h.jumpAlone hj
  simp [State.decodeInput, hhold, Port.read, hf2d]

theorem EngineInv.inputAtPc {s : State} (h : EngineInv s) : InputAtPc s := by
  intro f hin
  obtain ⟨haddr, hhold⟩ := h.fetchAddress
  refine ⟨?_, ?_⟩
  · unfold State.decodeInput at hin
    split at hin
    · cases hin; exact hhold f ‹_›
    · exact haddr f hin
  · by_contra hv
    rw [Bool.not_eq_true] at hv
    simp [h.decodeInput_eq_none (h.pcValidity.mp hv)] at hin

/-- The engine's invariant at the start of a cycle, from what `FlightInv` says of the instructions in flight and
what the ports hold. -/
theorem engineInv_of {s : State} (hf : FlightInv s s.flight) (hstage : s.stage = .writeback)
    (hdata : s.f2d.written = none ∧ s.d2e.written = none ∧ s.e2m.written = none ∧ s.m2w.written = none)
    (hd2f : s.d2f.written = none) (hstall : s.e2d = Port.empty ∧ s.m2e = Port.empty ∧ s.w2m = Port.empty)
    (hfetched : ∀ f, s.f2d.out = some f → s.pcValid = true ∧ f.pc = s.pc)
    (hblocked : s.pcValid = false → s.d2f.out = none) : EngineInv s where
  stage := hstage
  dataPorts := hdata
  d2fPort := hd2f
  stallPorts := hstall
  fetchAddress := ⟨fun f h => (hfetched f h).2, fun f h => (hf.held f h).1⟩
  pcValidity := hf.pcValidity.trans (jumpInFlight_iff s).symm
  jumpAlone hj := by
    have hv := hf.pcValidity.mpr ((jumpInFlight_iff s).mp hj)
    refine ⟨Option.eq_none_iff_forall_ne_some.mpr fun f h => ?_,
      Option.eq_none_iff_forall_ne_some.mpr fun f h => ?_, hblocked hv⟩
    · obtain ⟨-, hvalid, -⟩ := hf.held f h
      simp [hv] at hvalid
    · obtain ⟨hvalid, -⟩ := hfetched f h
      simp [hv] at hvalid
  jumpYoungest := (pairwise_flight_iff _ _ _).mp hf.jumpYoungest
  pendingInFlight k hk := by
    obtain ⟨p, hp, hdst⟩ := hf.pending k hk
    rw [flight_eq_map] at hp
    obtain ⟨r, hr, rfl⟩ := List.mem_map.mp hp
    exact ⟨r, hr, hdst⟩
  recordsDecoded r hr := hf.decoded r.identity (flight_eq_map s ▸ List.mem_map_of_mem hr)
  holdDecoded f h := (hf.held f h).2.2

/-- After writeback the instructions of D2E and E2M are in flight (40 R115). -/
theorem FlightInv.afterWriteback {s a : State} (h : EngineInv s) (o : WritebackOutcome (startCycle s) a) :
    FlightInv a (occupant s.d2e.out ++ occupant s.e2m.out) := by
  have hs : FlightInv { startCycle s with stage := .writeback } s.flight := h.flightInv.congr rfl rfl rfl rfl
  rw [State.flight] at hs
  cases o with
  | bubble hr =>
    rw [startCycle_m2w] at hr
    rw [hr, occupant_none, List.append_nil] at hs
    exact hs.congr rfl rfl rfl rfl
  | retire r hr =>
    rw [startCycle_m2w] at hr
    rw [hr, occupant_some, ← List.append_assoc] at hs
    exact hs.retire

theorem InputAtPc.afterWriteback {s a : State} (h : EngineInv s) (o : WritebackOutcome (startCycle s) a) :
    InputAtPc a := by
  cases o with
  | bubble hr => exact h.inputAtPc
  | retire r hr =>
    intro f hin
    obtain ⟨hpc, hv⟩ := h.inputAtPc f (by simpa [State.decodeInput] using hin)
    rw [startCycle_m2w] at hr
    have hj : r.op.isJump = false := h.flightInv.no_jump hv (r.word, r.op) (by simp [State.flight, hr])
    exact ⟨by simpa [hj] using hpc, by simpa [hj] using hv⟩

/-- After decode the instruction that was issued, if one was, is in flight as well (40 R116). -/
theorem FlightInv.afterDecode {a b : State} {flight : List (Word × Instr)} (h : FlightInv a flight)
    (hin : InputAtPc a) (hd2e : a.d2e.written = none) (o : DecodeOutcome a b) :
    FlightInv b (occupant b.d2e.written ++ flight) := by
  have hs : FlightInv { a with stage := .decode } flight := h.congr rfl rfl rfl rfl
  cases o with
  | bubble =>
    rw [bubble_d2e, hd2e]
    exact hs.congr rfl rfl rfl rfl
  | stall f i hf hw =>
    obtain ⟨hpc, hv⟩ := hin f hf
    rw [holdBack_d2e, hd2e]
    exact hs.holdBack hv hpc hw
  | issue f i hf hw =>
    obtain ⟨-, hv⟩ := hin f hf
    rw [issue_d2e]
    exact hs.issue hv hw

/-- Decode stalls fetch only while the pc is valid (40 R124). -/
theorem DecodeOutcome.d2f_of_pcValid_false {a b : State} (hin : InputAtPc a) (hd2f : a.d2f.written = none)
    (o : DecodeOutcome a b) (hv : b.pcValid = false) : b.d2f.written = none := by
  cases o with
  | bubble => simpa using hd2f
  | stall f i hf =>
    obtain ⟨-, hvalid⟩ := hin f hf
    simp [hvalid] at hv
  | issue => simpa using hd2f

theorem WritebackOutcome.written {s a : State} (h : EngineInv s) (o : WritebackOutcome (startCycle s) a) :
    a.d2e.written = none ∧ a.d2f.written = none := by
  obtain ⟨-, hd2e, -, -⟩ := h.dataPorts
  cases o <;> simp [hd2e, h.d2fPort]

/-- The engine's invariant through a safe cycle: writeback takes an instruction off the list, decode puts one at its
front, and the handlers after them move the rest on. -/
theorem EngineInv.afterStep {s t : State} (h : EngineInv s) (hrun : s.isRunning = true)
    (hstep : step s = .next t) (ht : t.isSafe) : EngineInv t := by
  obtain ⟨a, b, g, x, y, m, oa, ob, og, hx, hy, rfl⟩ := step_outcome h hrun hstep ht
  obtain ⟨ad2e, ad2f⟩ := oa.written h
  have ha := InputAtPc.afterWriteback h oa
  have hb := (FlightInv.afterWriteback h oa).afterDecode ha ad2e ob
  have hflight : (afterCycle b g x y m).flight =
      occupant b.d2e.written ++ (occupant s.d2e.out ++ occupant s.e2m.out) := by
    simp [State.flight, occupant_eq hx, occupant_eq hy]
  obtain ⟨he2d, hm2e, hw2m⟩ := h.stallPorts
  have pa := oa.samePorts
  have pb := ob.samePorts
  refine engineInv_of (hflight ▸ hb.congr (afterCycle_rf ..) (afterCycle_pc ..) (afterCycle_pcValid ..)
    (afterCycle_hold ..)) (afterCycle_stage ..) ⟨rfl, rfl, rfl, rfl⟩ (Port.updateStall_written _ _)
    ⟨?e2d, ?m2e, ?w2m⟩ og.atPc fun hv => ?blocked
  case e2d => simp [pb.e2d, pa.e2d, he2d]
  case m2e => simp [pb.m2e, pa.m2e, hm2e]
  case w2m => simp [pb.w2m, pa.w2m, hw2m]
  case blocked => exact Port.updateStall_out_of_written_none (ob.d2f_of_pcValid_false ha ad2f hv) _

/-! ### What a safe cycle did to each instruction -/

theorem DecodeOutcome.sameRetirement {a b : State} (o : DecodeOutcome a b) :
    b.retired = a.retired ∧ b.trace.writeback = a.trace.writeback := by
  cases o <;> simp [State.bubble, holdBack]

/-- Decode writes no slot: it only marks destinations as pending (40 R116). -/
theorem DecodeOutcome.sameValue {a b : State} (o : DecodeOutcome a b) (k : Nat) :
    b.readSlot k = a.readSlot k ∧ b.isWritten k = a.isWritten k := by
  cases o with
  | bubble => exact ⟨readSlot_congr rfl k, isWritten_congr rfl k⟩
  | stall => exact ⟨readSlot_congr rfl k, isWritten_congr rfl k⟩
  | issue f i => exact ⟨issue_readSlot _ _ _ k, issue_isWritten _ _ _ k⟩

theorem WritebackOutcome.decodeInput {s a : State} (o : WritebackOutcome (startCycle s) a) :
    a.decodeInput = s.decodeInput := by
  cases o <;> simp [State.decodeInput]

theorem WritebackOutcome.hold {s a : State} (o : WritebackOutcome (startCycle s) a) : a.hold = s.hold := by
  cases o <;> simp

theorem WritebackOutcome.pc_of_not_jump {s a : State} (o : WritebackOutcome (startCycle s) a)
    (h : ∀ r, s.m2w.out = some r → r.op.isJump = false) : a.pc = s.pc := by
  cases o with
  | bubble => simp
  | retire r hr => simp [h r hr]

/-- With nothing to decode the decode handler leaves everything but its trace entry (40 R116, R121). -/
theorem DecodeOutcome.eq_bubble {a b : State} (o : DecodeOutcome a b) (hin : a.decodeInput = none) :
    b = State.bubble { a with stage := .decode } := by
  cases o with
  | bubble => rfl
  | stall f i hf => simp [hin] at hf
  | issue f i hf => simp [hin] at hf

/-- The instruction that retires in a safe cycle has written its first destination at the end of it (40 R115). -/
theorem step_writes_result {s t : State} {r : InstrRecord} (h : EngineInv s) (hrun : s.isRunning = true)
    (hstep : step s = .next t) (ht : t.isSafe) (hr : s.m2w.out = some r) (h0 : r.dst ≠ 0) (hlt : r.dst < 34)
    (hne : r.dst ≠ r.dst2) : t.isWritten r.dst = true ∧ t.readSlot r.dst = r.result := by
  obtain ⟨a, b, g, x, y, m, oa, ob, -, -, -, rfl⟩ := step_outcome h hrun hstep ht
  obtain ⟨hread, hwritten⟩ := ob.sameValue r.dst
  have hrf := afterCycle_rf b g x y m
  rw [isWritten_congr hrf, readSlot_congr hrf, hread, hwritten]
  cases oa with
  | bubble hnone =>
    rw [startCycle_m2w, hr] at hnone
    cases hnone
  | retire r' hr' =>
    rw [startCycle_m2w, hr] at hr'
    obtain rfl := Option.some.inj hr'
    rw [retire_isWritten, retire_readSlot]
    simp only [InstrRecord.dst, InstrRecord.dst2] at h0 hlt hne ⊢
    simp [h0, hlt, hne.symm]

theorem handedOn_none {x y : Option InstrRecord} (hx : x = none) (h : Option.Rel SameInstruction x y) : y = none := by
  subst hx
  cases h
  rfl

theorem handedOn_some {x y : Option InstrRecord} {r : InstrRecord} (hx : x = some r)
    (h : Option.Rel SameInstruction x y) : ∃ r', y = some r' ∧ SameInstruction r r' := by
  subst hx
  cases h with
  | some hsame => exact ⟨_, rfl, hsame⟩

theorem SameInstruction.destinations {r r' : InstrRecord} (h : SameInstruction r r') :
    r'.dst = r.dst ∧ r'.dst2 = r.dst2 := by
  obtain ⟨-, -, hop, -, -⟩ := h
  simp [InstrRecord.dst, InstrRecord.dst2, hop]

/-- A jump that M2W does not deliver is in D2E or E2M (40 R124). -/
theorem hasJump_before_writeback {s : State} (hj : s.jumpInFlight)
    (hm2w : ∀ r, s.m2w.out = some r → r.op.isJump = false) :
    HasJump (occupant s.d2e.out ++ occupant s.e2m.out) := by
  obtain ⟨p, hp, hjump⟩ := (jumpInFlight_iff s).mp hj
  rw [State.flight, ← List.append_assoc] at hp
  rcases List.mem_append.mp hp with hp | hp
  · exact ⟨p, hp, hjump⟩
  · cases hm : s.m2w.out with
    | none => simp [hm] at hp
    | some r =>
      obtain rfl : p = (r.word, r.op) := by simpa [hm] using hp
      simp [hm2w r hm] at hjump

/-- The held word `f` has been issued: its record stands in D2E and nothing is held (40 R116). -/
def HasIssued (f : Fetched) (s : State) : Prop :=
  s.hold = none ∧ ∃ r, s.d2e.out = some r ∧ r.word = f.word ∧ r.pc = f.pc

/-- A held word is issued, or it waits on, and then something older was still before writeback (40 R116, R132). -/
theorem step_issues_or_holds {s t : State} {f : Fetched} (h : EngineInv s) (hrun : s.isRunning = true)
    (hstep : step s = .next t) (ht : t.isSafe) (hf : s.hold = some f) :
    HasIssued f t ∨
      (t.hold = some f ∧ t.d2e.out = none ∧ ¬ (s.d2e.out = none ∧ s.e2m.out = none)) := by
  obtain ⟨a, b, g, x, y, m, oa, ob, -, -, -, rfl⟩ := step_outcome h hrun hstep ht
  have hin : a.decodeInput = some f := by rw [oa.decodeInput, State.decodeInput, hf]
  obtain ⟨hd2e, -⟩ := oa.written h
  have hflight := FlightInv.afterWriteback h oa
  cases ob with
  | bubble hnone => simp [hin] at hnone
  | stall f' i hf' hw hh =>
    obtain rfl : f = f' := Option.some.inj (hin.symm.trans hf')
    refine .inr ⟨by simp, by simp [hd2e], fun ⟨hd, he⟩ => ?_⟩
    rw [hd, he] at hflight
    exact absurd hh (by simp [hflight.not_hazard i])
  | issue f' i hf' hw =>
    obtain rfl : f = f' := Option.some.inj (hin.symm.trans hf')
    exact .inl ⟨by simp, issuedRecord i f { a with stage := .decode }, by simp, rfl, rfl⟩

/-! ### Runs of a safe engine -/

/-- The first step of a run: it ends in some state, from which the rest of the run goes on. -/
theorem run_succ_inv_of (M : Host.Core) {k : Nat} {s t : M.State} (h : Host.Core.run M (k + 1) s = .next t) :
    ∃ u, M.step s = .next u ∧ Host.Core.run M k u = .next t := by
  rw [Host.Core.run] at h
  cases hstep : M.step s <;> simp only [hstep] at h
  case next u => exact ⟨u, rfl, h⟩
  all_goals cases h

theorem run_safe_from {k : Nat} {s t : State} (h : Host.Core.run Sys2Proof.core k s = .next t) (ht : t.isSafe) :
    s.isSafe := by
  induction k generalizing s with
  | zero => cases h; exact ht
  | succ k ih =>
    obtain ⟨u, hstep, hrest⟩ := run_succ_inv_of Sys2Proof.core h
    exact step_safe_from hstep (ih hrest)

/-- The first step of a safe run that the target does not end is a cycle that keeps the invariant, and the rest of
the run is one that the target does not end either. -/
theorem run_first_cycle {k : Nat} {s t : State} (hi : EngineInv s) (hs : s.isSafe)
    (hroom : s.retired.toNat + k < s.target.toNat) (h : Host.Core.run Sys2Proof.core (k + 1) s = .next t)
    (ht : t.isSafe) :
    ∃ u, s.isRunning = true ∧ step s = .next u ∧ u.isSafe ∧ EngineInv u ∧
      u.retired.toNat + k ≤ u.target.toNat ∧ Host.Core.run Sys2Proof.core k u = .next t := by
  obtain ⟨u, hstep, hrest⟩ := run_succ_inv_of Sys2Proof.core h
  have hrun : s.isRunning = true := (isRunning_iff s).mpr ⟨hs, by omega⟩
  have hu := run_safe_from hrest ht
  have hle := step_retired_le_succ hstep
  obtain ⟨-, htarget, -⟩ := step_retires hstep
  exact ⟨u, hrun, hstep, hu, hi.afterStep hrun hstep hu, by rw [htarget]; omega, hrest⟩

/-- Three cycles of a safe run that the target does not end, each from a state with the invariant. -/
structure ThreeCycles (s u v t : State) : Prop where
  inv : EngineInv s ∧ EngineInv u ∧ EngineInv v
  running : s.isRunning = true ∧ u.isRunning = true ∧ v.isRunning = true
  steps : step s = .next u ∧ step u = .next v ∧ step v = .next t
  isSafe : u.isSafe ∧ v.isSafe ∧ t.isSafe

theorem run_three_cycles {s t : State} (hi : EngineInv s) (hs : s.isSafe)
    (hroom : s.retired.toNat + 2 < s.target.toNat) (h : Host.Core.run Sys2Proof.core 3 s = .next t)
    (ht : t.isSafe) : ∃ u v, ThreeCycles s u v t := by
  obtain ⟨u, hsrun, hsu, hu, hiu, hroom, h⟩ := run_first_cycle hi hs hroom h ht
  obtain ⟨v, hurun, huv, hv, hiv, hroom, h⟩ := run_first_cycle (k := 1) hiu hu (by omega) h ht
  obtain ⟨w, hvrun, hvw, -, -, -, h⟩ := run_first_cycle (k := 0) hiv hv (by omega) h ht
  cases h
  exact ⟨u, v, ⟨hi, hiu, hiv⟩, ⟨hsrun, hurun, hvrun⟩, ⟨hsu, huv, hvw⟩, ⟨hu, hv, ht⟩⟩

/-! ### The statements -/

/-- Settles O17: no hazard and written sources leave only the issue; its destinations are slots, so marking them
takes effect. -/
theorem issueReadsSourcesAndMarksDestinations : Obligations.IssueReadsSourcesAndMarksDestinations := by
  intro i f s hwf hat hp1 hp2 hwaw hw1 hw2
  have hexec : exec i s = .next (issue i f s) := by
    rw [exec_decode i s f hat, decodePart_of_ready f (hazard_eq_false_of hp1 hp2 hwaw) hw1 hw2]
  obtain ⟨hdst, hdst2⟩ := destinations_lt i hwf
  refine ⟨issue i f s, hexec, issue_d2e i f s, ?trace, issue_hold i f s, issue_d2f i f s, issue_fatal i f s,
    ?jump, ?next, fun j => ⟨issue_readSlot i f s j, issue_isWritten i f s j⟩, fun j => ?pending,
    issue_sameOutsideDecode i f s⟩
  case trace => rw [issue_trace]; rfl
  case jump => intro hj; simp [hj]
  case next => intro hj; simp [hj, nextPc]
  case pending =>
    rw [issue_isPending]
    have hlt : (j = i.dst ∨ j = i.dst2) → j < 34 := by omega
    exact ⟨Or.imp_right fun ⟨h0, _, hd⟩ => ⟨h0, hd⟩, Or.imp_right fun ⟨h0, hd⟩ => ⟨h0, hlt hd, hd⟩⟩

/-- Settles O18: the pending operand is a hazard, and a hazard is a stall. -/
theorem pendingOperandStallsDecode : Obligations.PendingOperandStallsDecode := by
  intro i f s hat hpending
  have hexec : exec i s = .next (holdBack f s) := by
    rw [exec_decode i s f hat, decodePart_of_hazard f ((hazard_eq_true_iff i s).mpr hpending)]
  exact ⟨holdBack f s, hexec, rfl, rfl, rfl, rfl, rfl, rfl, rfl, rfl, holdBack_sameOutsideDecode f s⟩

/-- Settles O19: without a hazard the sources are checked in their order. -/
theorem unwrittenSourceIsFatal : Obligations.UnwrittenSourceIsFatal := by
  intro i f s hat hp1 hp2 hwaw
  have hh := hazard_eq_false_of hp1 hp2 hwaw
  rw [exec_decode i s f hat]
  exact ⟨fun h1 => congrArg _ (decodePart_of_src1_unwritten f hh h1),
    fun h1 h2 => congrArg _ (decodePart_of_src2_unwritten f hh h1 h2)⟩

/-- Settles O21: both checks pass, and the retirement is read off slot by slot. LO and HI are different slots, so
the second write does not undo the first. -/
theorem retirementWritesDestinations : Obligations.RetirementWritesDestinations := by
  intro i r s hwf hat hd hd2
  have hexec : exec i s = .next (retire i r s) := by
    rw [exec_writeback i s r hat, writebackPart_of_pending r hd hd2]
  obtain ⟨hlt, hlt2⟩ := destinations_lt i hwf
  have hne : i.dst2 ≠ 0 → i.dst2 ≠ i.dst := fun h2 => by
    obtain ⟨h33, h32⟩ := destinations_of_dst2_ne_zero i h2
    omega
  have unpending : ∀ j, j = i.dst ∨ j = i.dst2 → (retire i r s).isPending j = false := fun j hj => by
    rw [Bool.eq_false_iff, Ne, retire_isPending]
    grind
  refine ⟨retire i r s, hexec, retire_retired i r s, ?trace, fun h0 => ⟨?value, unpending _ (.inl rfl), ?written⟩,
    fun h0 => ⟨?value2, unpending _ (.inr rfl), ?written2⟩, fun j hj => retire_sameSlot i r s hj,
    ?jump, ?next, retire_sameOutsideWriteback i r s⟩
  case trace => rw [retire_trace]
  case value => rw [retire_readSlot, if_neg (by grind), if_pos ⟨rfl, h0, hlt⟩]
  case written => rw [retire_isWritten, if_neg (by grind), if_pos ⟨rfl, h0, hlt⟩]
  case value2 => rw [retire_readSlot, if_pos ⟨rfl, h0, hlt2⟩]
  case written2 => rw [retire_isWritten, if_pos ⟨rfl, h0, hlt2⟩]
  case jump => intro hj; simp [hj]
  case next => intro hj; simp [hj]

/-- Settles O22: the checks stand in the order of the destinations, before any write. -/
theorem unpendingWriteIsFatal : Obligations.UnpendingWriteIsFatal := by
  intro i r s hat
  rw [exec_writeback i s r hat]
  exact ⟨fun h0 h => congrArg _ (writebackPart_of_dst_unpending r h0 h),
    fun h h0 h2 => congrArg _ (writebackPart_of_dst2_unpending r h h0 h2)⟩

/-- Settles O23: the handler either raises or sends the record on. -/
theorem executeStageFrame : Obligations.ExecuteStageFrame := by
  intro i s t r hat h
  rcases exec_execute i s r hat with ⟨stop, he⟩ | ⟨r', he, hsame⟩ <;> rw [he] at h <;> cases h
  · exact ⟨by simp [SameButExecuteOutput, SameTraceBut], .inr (by simp)⟩
  · exact ⟨by simp [SameButExecuteOutput, SameTraceBut], .inl ⟨rfl, r', rfl, rfl, hsame⟩⟩

/-- Settles O41: the handler raises, passes the record on, or writes memory first; the write is a store's. -/
theorem memoryStageFrame : Obligations.MemoryStageFrame := by
  intro i s t r hat h
  have hmem : i.isStore = false → t.mem = s.mem := fun hs => by
    rw [exec_memory_eq hat] at h
    cases h
    exact memoryPartOf_keeps_mem hs r s
  rcases exec_memory i s r hat with ⟨stop, he⟩ | ⟨s', r', he, hsame, hs'⟩ <;> rw [he] at h <;> cases h
  · exact ⟨by simp [SameButMemoryOutput, SameTraceBut], hmem, .inr (by simp)⟩
  · have hs : s' = { s with mem := s'.mem } := by
      rcases hs' with rfl | hw
      · rfl
      · exact memWrite_eq_with_mem hw
    generalize s'.mem = m at hs
    subst hs
    exact ⟨by simp [SameButMemoryOutput, SameTraceBut], hmem, .inl ⟨rfl, r', rfl, rfl, hsame⟩⟩

/-- Settles O40: an instruction that is no load and no store has the memory part that passes. -/
theorem nonMemoryInstructionsPass : Obligations.NonMemoryInstructionsPass := by
  intro i s r hl hs hat
  rw [exec_memory_eq hat, memoryPartOf_of_not_load_not_store hl hs]
  rfl

/-- Settles O49: one rule for each answer of the handler; the four bytes are the word that is read. -/
theorem fetchStageReadsTheWordAtPc : Obligations.FetchStageReadsTheWordAtPc := by
  intro s
  refine ⟨fetchStage_of_idle, fun hs hv => ⟨fun stop => fetchStage_of_read_error hs hv, ?word⟩⟩
  intro b0 b1 b2 b3 ha h0 h1 h2 h3
  have hread := fetchStage_of_read_ok hs hv (memRead_four_bytes .unmappedFetch ha h0 h1 h2 h3)
  rwa [BitVec.ofNat_toNat, BitVec.setWidth_eq] at hread

/-- Settles O48: the ports of the two latencies by their updates; everything else is a field of `endCycle`. -/
theorem endOfCycleUpdatesThePorts : Obligations.EndOfCycleUpdatesThePorts := by
  intro s
  refine ⟨rfl, rfl, rfl, rfl, fun hone => ?one, fun hzero => ?zero, rfl, rfl, rfl, rfl, rfl, rfl, rfl, rfl, rfl, rfl,
    rfl, rfl, fun p v => ⟨rfl, rfl, rfl, rfl, rfl⟩⟩
  case one => simp [hone, Port.updateStall, Port.update]
  case zero => simp [hzero, Port.updateStall, Port.empty]

/-- Settles O47: each handler calls `exec` with the record that its port delivers. -/
theorem handlersRunTheirInstruction : Obligations.HandlersRunTheirInstruction := by
  intro s r
  refine ⟨fun hr => ?writeback, fun hr hs => ?execute, fun hr hs => ?memory⟩
  case writeback => simp [writebackStage, Port.read, hr]
  case execute => simp [executeStage, Port.read, hr, hs]
  case memory => simp [memoryStage, Port.read, hr, hs]

/-- Settles O46: a running step is a cycle; writeback has answered `a`, so the cycle goes on from `a`, where the
decode handler calls `exec` of the decoded instruction. -/
theorem stepRunsTheDecodedInstruction : Obligations.StepRunsTheDecodedInstruction := by
  intro s a f i hrun hwb hsafe hstall hinput hdecode
  have hdec : decodeStage a = exec i { a with stage := .decode } := decodeStage_of_decoded hstall hinput hdecode
  rw [step_running s hrun, runCycle, hwb, chain_of_safe hsafe, hdec]

/-- Settles O51: only writeback counts, and a cycle starts only below the target. -/
theorem stepRetiresAtMostOne : Obligations.StepRetiresAtMostOne := by
  intro s t h
  obtain ⟨-, -, hretired⟩ := step_retires h
  exact ⟨hretired, step_retired_le_target h⟩

/-- Settles O52: no handler touches them. -/
theorem stepKeepsParameters : Obligations.StepKeepsParameters := by
  intro s t h
  obtain ⟨hparams, htarget, -⟩ := step_retires h
  exact ⟨hparams, htarget⟩

/-- Settles O54: memory by `step_keepsCanonical`, the count by `step_retired_le_target`, and the engine by
`EngineInv.afterStep`; a run that has ended stays as it is. -/
theorem stepKeepsTheInvariant : Obligations.StepKeepsTheInvariant := by
  rintro s t ⟨hmem, hcount, hengine⟩ h
  refine ⟨step_keepsCanonical s t h hmem, step_retired_le_target h hcount, fun ht => ?engine⟩
  case engine =>
    have hi := hengine (step_safe_from h ht)
    by_cases hrun : s.isRunning = true
    · exact hi.afterStep hrun h ht
    · rw [step_ended hrun] at h
      cases h
      exact hi

/-- Settles O56: each handler of the safe cycle has handed its instruction on, and writeback has retired the one in
M2W. -/
theorem inFlightInstructionsAdvance : Obligations.InFlightInstructionsAdvance := by
  intro s t hi hrun h ht
  obtain ⟨a, b, g, x, y, m, oa, ob, -, hx, hy, rfl⟩ := step_outcome hi hrun h ht
  obtain ⟨hretired, htrace⟩ := ob.sameRetirement
  simp only [afterCycle_e2m, afterCycle_m2w, afterCycle_retired, afterCycle_trace_writeback]
  refine ⟨fun hd => ?_, fun r hd => ?_, fun he => ?_, fun r he => ?_, fun hm => ?unretired, fun r hm => ?retired⟩
  · exact handedOn_none hd hx
  · exact handedOn_some hd hx
  · exact handedOn_none he hy
  · exact handedOn_some he hy
  case unretired =>
    refine hretired.trans ?_
    cases oa with
    | bubble => rfl
    | retire r hr => simp [hm] at hr
  case retired =>
    suffices hwb : a.retired = s.retired + 1#64 ∧ a.trace.writeback = r from
      ⟨hretired.trans hwb.1, htrace.trans hwb.2⟩
    cases oa with
    | bubble hr => simp [hm] at hr
    | retire r' hr =>
      obtain rfl : r = r' := Option.some.inj (hm.symm.trans hr)
      simp

/-- Settles O57: the record goes to E2M, to M2W, and in the third cycle to writeback, which stores its result. -/
theorem issuedInstructionRetiresInThreeCycles : Obligations.IssuedInstructionRetiresInThreeCycles := by
  intro s t r hi hs hroom hr h ht
  obtain ⟨u, v, c⟩ := run_three_cycles hi hs hroom h ht
  obtain ⟨-, hiu, hiv⟩ := c.inv
  obtain ⟨hsrun, hurun, hvrun⟩ := c.running
  obtain ⟨hsu, huv, hvt⟩ := c.steps
  obtain ⟨hu, hv, -⟩ := c.isSafe
  obtain ⟨-, toE2M, -⟩ := inFlightInstructionsAdvance s u hi hsrun hsu hu
  obtain ⟨-, -, -, toM2W, -⟩ := inFlightInstructionsAdvance u v hiu hurun huv hv
  obtain ⟨-, -, -, -, -, retires⟩ := inFlightInstructionsAdvance v t hiv hvrun hvt ht
  obtain ⟨r1, hr1, same1⟩ := toE2M r hr
  obtain ⟨r2, hr2, same2⟩ := toM2W r1 hr1
  have hsame := same1.trans same2
  obtain ⟨hdst, hdst2⟩ := hsame.destinations
  refine ⟨r2, hsame, (retires r2 hr2).2, ?_⟩
  rw [← hdst, ← hdst2]
  exact step_writes_result hiv hvrun hvt ht hr2

/-- Settles O58: a retiring jump makes the pc valid before fetch runs, and nothing that waits could stall fetch; which
word it reads is O55. -/
theorem jumpTargetIsFetchedAtItsWriteback : Obligations.JumpTargetIsFetchedAtItsWriteback := by
  intro s t r hi hrun hr hj h ht
  have hjump : s.jumpInFlight := ⟨r, by simp [State.inFlight, hr], hj⟩
  obtain ⟨hhold, -, hd2f⟩ := hi.jumpAlone hjump
  have fetched_word := fetchSeesEarlierStoresOnly s t
  obtain ⟨a, b, g, x, y, m, oa, ob, og, -, -, rfl⟩ := step_outcome hi hrun h ht
  have hb := ob.eq_bubble (oa.decodeInput.trans (hi.decodeInput_eq_none hjump))
  obtain ⟨-, ad2f⟩ := oa.written hi
  have hahold := oa.hold
  have hstall : ¬ FetchIsStalled b := by
    have hout : b.d2f.out = none := (ob.samePorts.d2fOut.trans oa.samePorts.d2fOut).trans hd2f
    have hwritten : b.d2f.written = none := by simpa [hb] using ad2f
    simp [FetchIsStalled, hout, hwritten]
  obtain ⟨hpc, hv⟩ : b.pc = r.newPc ∧ b.pcValid = true := by
    cases oa with
    | bubble hnone => simp [hr] at hnone
    | retire r' hr' =>
      obtain rfl : r = r' := Option.some.inj (hr.symm.trans hr')
      simp [hb, hj]
  obtain ⟨f, hg⟩ := Option.isSome_iff_exists.mp (og.fetches hstall hv)
  obtain ⟨hfpc, v, hread, hword⟩ := fetched_word f hi hrun h ht (by simp [hg])
  rw [afterCycle_pc, hpc] at hfpc
  refine ⟨by simp [hpc], by simp [hv], ?hold, v, hfpc ▸ hread, ?word⟩
  case hold => simp [hb, hahold, hhold]
  case word => simp [hg, ← hword, ← hfpc]

/-- Settles O59: a jump that is not yet at writeback keeps the pc invalid through the cycle, so nothing is fetched,
and nothing waits that could be issued. -/
theorem jumpBlocksFetchUntilItRetires : Obligations.JumpBlocksFetchUntilItRetires := by
  intro s t hi hrun hjump hm2w h ht
  have hit := hi.afterStep hrun h ht
  obtain ⟨a, b, g, x, y, m, oa, ob, og, -, -, rfl⟩ := step_outcome hi hrun h ht
  have hb := ob.eq_bubble (oa.decodeInput.trans (hi.decodeInput_eq_none hjump))
  obtain ⟨ad2e, -⟩ := oa.written hi
  have hapc := oa.pc_of_not_jump hm2w
  have hav : a.pcValid = false :=
    (FlightInv.afterWriteback hi oa).pcValidity.mpr (hasJump_before_writeback hjump hm2w)
  obtain ⟨hpc, hv, hd2e⟩ : b.pc = s.pc ∧ b.pcValid = false ∧ b.d2e.written = none := by
    simp [hb, hapc, hav, ad2e]
  have hg : g = none := Option.eq_none_iff_forall_ne_some.mpr fun f hf => by
    obtain ⟨hvalid, -⟩ := og.atPc f hf
    simp [hv] at hvalid
  have htv : (afterCycle b g x y m).pcValid = false := by simp [hv]
  exact ⟨hit.pcValidity.mp htv, htv, by simp [hd2e], by simp [hg], by simp [hpc]⟩

/-- Settles O60: each cycle that holds the word on lets the instructions before it advance, so in the third cycle
nothing is left that could stall it. -/
theorem heldInstructionIssuesWithinThreeCycles : Obligations.HeldInstructionIssuesWithinThreeCycles := by
  intro s t f hi hs hroom hf h ht
  obtain ⟨u, v, c⟩ := run_three_cycles hi hs hroom h ht
  obtain ⟨-, hiu, hiv⟩ := c.inv
  obtain ⟨hsrun, hurun, hvrun⟩ := c.running
  obtain ⟨hsu, huv, hvt⟩ := c.steps
  obtain ⟨hu, hv, -⟩ := c.isSafe
  rcases step_issues_or_holds hi hsrun hsu hu hf with issued | ⟨hfu, hud2e, -⟩
  · exact ⟨1, u, by omega, run_succ 0 s u hsu, issued⟩
  rcases step_issues_or_holds hiu hurun huv hv hfu with issued | ⟨hfv, hvd2e, -⟩
  · exact ⟨2, v, by omega, (run_succ 1 s u hsu).trans (run_succ 0 u v huv), issued⟩
  rcases step_issues_or_holds hiv hvrun hvt ht hfv with issued | ⟨-, -, hbusy⟩
  · exact ⟨3, t, le_rfl, h, issued⟩
  · obtain ⟨toE2M, -⟩ := inFlightInstructionsAdvance u v hiu hurun huv hv
    exact absurd ⟨hvd2e, toE2M hud2e⟩ hbusy

end Sys2Proof.Machine

/-! # The integer ALU (spec 41)

First the row and the key of an instruction, from its encoding, and the two kinds of execute part of this family: one
that only sets the result (`setResult`), and one that checks the exact result for overflow (`setChecked`). Then the
arithmetic of the results, which the statements describe in other words than the model. Then the statements of this
family. -/

namespace Sys2Proof.Machine

/-! ### The row and the key of an instruction (30 R88) -/

/-- An instruction encoded as an R-format word is decoded from words with its function code only. -/
theorem hasFunct_of_encode {i : Instr} {row : OperandRow} {rs rt rd shamt funct : Nat} (hrow : i.row = row)
    (henc : encode i = rWord rs rt rd shamt funct) (hfunct : funct < 64 := by decide) : HasFunct i funct row := by
  refine ⟨hrow, fun w hw => ?_⟩
  obtain ⟨-, hop, hcode⟩ := encode_keeps_key hw
  rw [henc, opcodeOf_rWord] at hop
  rw [henc, functOf_rWord, Nat.mod_eq_of_lt hfunct] at hcode
  exact ⟨hop.symm, (hcode hop.symm).symm⟩

/-- An instruction encoded as an I-format word is decoded from words with its opcode only. -/
theorem hasOpcode_of_encode {i : Instr} {row : OperandRow} {opcode rs rt : Nat} {imm : Half} (hrow : i.row = row)
    (henc : encode i = iWord opcode rs rt imm) (hopcode : opcode < 64 := by decide) : HasOpcode i opcode row := by
  refine ⟨hrow, fun w hw => ?_⟩
  obtain ⟨-, hop, -⟩ := encode_keeps_key hw
  rw [henc, opcodeOf_iWord, Nat.mod_eq_of_lt hopcode] at hop
  exact hop.symm

/-! ### The execute parts of the ALU (41 R195, R196) -/

/-- `exec` in the execute stage runs the instruction's execute part (40 R119). -/
theorem perform_execute {i : Instr} {compute : ExecutePart} {access : MemoryPart} {s : State} {r : InstrRecord}
    (h : AtExecute s r) : perform i compute access s = .next (executePart compute r s) := by
  obtain ⟨hstage, hport⟩ := h
  simp only [perform, hstage, hport]

/-- An instruction that only sets the result completes with it (41 R195). -/
theorem executesTo_of_setResult {i : Instr} {f g : InstrRecord → Word}
    (hexec : ∀ s, exec i s = perform i (setResult f) passMemory s) (hfg : ∀ r, f r = g r) :
    ExecutesTo i (fun _ r => { r with result := g r }) := by
  intro s r h
  obtain rfl : f = g := funext hfg
  rw [hexec, perform_execute h]
  rfl

section Checked

variable {i : Instr} {name : String} {f : InstrRecord → Int}

/-- A checked instruction completes with the exact result modulo 2^32 when it fits, or wraps (41 R196). -/
theorem exec_of_setChecked_completes {g : InstrRecord → Word}
    (hexec : ∀ s, exec i s = perform i (setChecked s.params.overflowMode name f) passMemory s)
    (hfg : ∀ r, BitVec.ofInt 32 (f r) = g r) (s : State) (r : InstrRecord) (h : AtExecute s r)
    (hfits : (-2 ^ 31 ≤ f r ∧ f r < 2 ^ 31) ∨ s.params.overflowMode = .wrap) :
    exec i s = .next (toMemory { r with result := g r } s) := by
  have hpass : ¬ (¬ (-2 ^ 31 ≤ f r ∧ f r < 2 ^ 31) ∧ s.params.overflowMode = .fatal) := by
    rintro ⟨hout, hmode⟩
    rcases hfits with hin | hwrap
    · exact hout hin
    · simp [hmode] at hwrap
  rw [hexec, perform_execute h]
  simp only [executePart, setChecked, overflowChecked_eq, if_neg hpass, hfg]

/-- A checked instruction whose exact result does not fit is a Fatal under OVERFLOW_MODE = fatal (41 R196). -/
theorem executeTraps_of_setChecked
    (hexec : ∀ s, exec i s = perform i (setChecked s.params.overflowMode name f) passMemory s) :
    ExecuteTraps i (fun s r => ¬ (-2 ^ 31 ≤ f r ∧ f r < 2 ^ 31) ∧ s.params.overflowMode = .fatal)
      (fun r => ⟨.arithmeticOverflow, .instr r.pc name⟩) := by
  intro s r h htrap
  rw [hexec, perform_execute h]
  simp only [executePart, setChecked, overflowChecked_eq, if_pos htrap]

end Checked

/-- `addi` checks the sum with the immediate's own signed value (41 R174). -/
theorem exec_addi (rt rs : Nat) (imm : Half) (s : State) :
    exec (.addi rt rs imm) s =
      perform (.addi rt rs imm)
        (setChecked s.params.overflowMode "addi" fun r => r.v1.toInt + imm.toInt) passMemory s := by
  rw [← sext16_toInt]
  rfl

/-! ### The exact sum and difference, modulo 2^32 (41 R170 to R175) -/

theorem ofInt_toInt_add (a b : Word) : BitVec.ofInt 32 (a.toInt + b.toInt) = a + b := by
  rw [BitVec.ofInt_add, BitVec.ofInt_toInt, BitVec.ofInt_toInt]

theorem ofInt_toInt_sub (a b : Word) : BitVec.ofInt 32 (a.toInt - b.toInt) = a - b := by
  rw [Int.sub_eq_add_neg, BitVec.ofInt_add, BitVec.ofInt_neg, BitVec.ofInt_toInt, BitVec.ofInt_toInt,
    BitVec.sub_eq_add_neg]

/-! ### A word and a zero-extended immediate, half by half (41 R180 to R182) -/

theorem zext16_eq_append (imm : Half) : zext16 imm = 0#16 ++ imm :=
  BitVec.setWidth_eq_append (by decide)

theorem word_eq_append_halves (a : Word) : a = a.extractLsb' 16 16 ++ a.extractLsb' 0 16 := by
  rw [BitVec.extractLsb'_append_extractLsb'_eq_extractLsb' (by decide)]
  simp

theorem and_zext16 (a : Word) (imm : Half) : a &&& zext16 imm = 0#16 ++ (a.extractLsb' 0 16 &&& imm) := by
  conv_lhs => rw [word_eq_append_halves a, zext16_eq_append, BitVec.and_append, BitVec.and_zero]

theorem or_zext16 (a : Word) (imm : Half) :
    a ||| zext16 imm = a.extractLsb' 16 16 ++ (a.extractLsb' 0 16 ||| imm) := by
  conv_lhs => rw [word_eq_append_halves a, zext16_eq_append, BitVec.or_append, BitVec.or_zero]

theorem xor_zext16 (a : Word) (imm : Half) :
    a ^^^ zext16 imm = a.extractLsb' 16 16 ++ (a.extractLsb' 0 16 ^^^ imm) := by
  conv_lhs => rw [word_eq_append_halves a, zext16_eq_append, BitVec.xor_append, BitVec.xor_zero]

/-! ### The shifts as arithmetic (41 R185 to R190) -/

theorem shiftLeft_eq_ofNat_mul (a : Word) (n : Nat) : a <<< n = BitVec.ofNat 32 (a.toNat * 2 ^ n) := by
  apply BitVec.eq_of_toNat_eq
  rw [BitVec.toNat_shiftLeft, BitVec.toNat_ofNat, Nat.shiftLeft_eq]

theorem ushiftRight_eq_ofNat_div (a : Word) (n : Nat) : a >>> n = BitVec.ofNat 32 (a.toNat / 2 ^ n) := by
  rw [← Nat.shiftRight_eq_div_pow, ← BitVec.toNat_ushiftRight, BitVec.ofNat_toNat, BitVec.setWidth_eq]

theorem sshiftRight_eq_ofInt_div (a : Word) (n : Nat) : a.sshiftRight n = BitVec.ofInt 32 (a.toInt / 2 ^ n) := by
  have hdiv : a.toInt / 2 ^ n = (a.sshiftRight n).toInt := by
    rw [BitVec.toInt_sshiftRight, Int.shiftRight_eq_div_pow, Int.natCast_pow, Nat.cast_ofNat]
  rw [hdiv, BitVec.ofInt_toInt]

/-! ### The comparisons (41 R191 to R194) -/

theorem boolWord_signedLess (a b : Word) :
    boolWord (signedLess a b) = if a.toInt < b.toInt then 1#32 else 0#32 := boolWord_decide _

theorem boolWord_unsignedLess (a b : Word) :
    boolWord (unsignedLess a b) = if a.toNat < b.toNat then 1#32 else 0#32 := boolWord_decide _

/-! ### The statements -/

/-- Settles O24: the three only set the result, and the model computes it by the same wrapping operation. -/
theorem wrappingArithmeticCompletes : Obligations.WrappingArithmeticCompletes := by
  refine ⟨fun rd rs rt => ⟨hasFunct_of_encode rfl rfl, ?addu⟩,
    fun rd rs rt => ⟨hasFunct_of_encode rfl rfl, ?subu⟩,
    fun rt rs imm => ⟨hasOpcode_of_encode rfl rfl, ?addiu⟩⟩
  case addu | subu | addiu => exact executesTo_of_setResult (fun _ => rfl) fun _ => rfl

/-- Settles O25: the overflow check decides between the two outcomes, and the word of the exact result is the sum or
difference of the words. -/
theorem checkedArithmetic : Obligations.CheckedArithmetic := by
  refine ⟨fun rd rs rt => ⟨hasFunct_of_encode rfl rfl, ?add, executeTraps_of_setChecked fun _ => rfl⟩,
    fun rd rs rt => ⟨hasFunct_of_encode rfl rfl, ?sub, executeTraps_of_setChecked fun _ => rfl⟩,
    fun rt rs imm => ⟨hasOpcode_of_encode rfl rfl, ?addi, executeTraps_of_setChecked (exec_addi rt rs imm)⟩⟩
  case add => exact exec_of_setChecked_completes (fun _ => rfl) fun r => ofInt_toInt_add r.v1 r.v2
  case sub => exact exec_of_setChecked_completes (fun _ => rfl) fun r => ofInt_toInt_sub r.v1 r.v2
  case addi =>
    refine exec_of_setChecked_completes (exec_addi rt rs imm) fun r => ?_
    rw [← sext16_toInt, ofInt_toInt_add, sext16]

/-- Settles O26: `nor` by De Morgan, the immediates half by half; the others as the model computes them. -/
theorem logicalOperationsComplete : Obligations.LogicalOperationsComplete := by
  refine ⟨fun rd rs rt => ⟨hasFunct_of_encode rfl rfl, ?and⟩,
    fun rd rs rt => ⟨hasFunct_of_encode rfl rfl, ?or⟩,
    fun rd rs rt => ⟨hasFunct_of_encode rfl rfl, ?xor⟩,
    fun rd rs rt => ⟨hasFunct_of_encode rfl rfl, ?nor⟩,
    fun rt rs imm => ⟨hasOpcode_of_encode rfl rfl, ?andi⟩,
    fun rt rs imm => ⟨hasOpcode_of_encode rfl rfl, ?ori⟩,
    fun rt rs imm => ⟨hasOpcode_of_encode rfl rfl, ?xori⟩,
    fun rt imm => ⟨hasOpcode_of_encode rfl rfl, ?lui⟩⟩
  case and | or | xor | lui => exact executesTo_of_setResult (fun _ => rfl) fun _ => rfl
  case nor => exact executesTo_of_setResult (fun _ => rfl) fun _ => BitVec.not_or
  case andi => exact executesTo_of_setResult (fun _ => rfl) fun r => and_zext16 r.v1 imm
  case ori => exact executesTo_of_setResult (fun _ => rfl) fun r => or_zext16 r.v1 imm
  case xori => exact executesTo_of_setResult (fun _ => rfl) fun r => xor_zext16 r.v1 imm

/-- Settles O27: each shift as a multiplication or division by a power of two. -/
theorem shiftsComplete : Obligations.ShiftsComplete := by
  refine ⟨fun rd rt shamt => ⟨hasFunct_of_encode rfl rfl, ?sll⟩,
    fun rd rt shamt => ⟨hasFunct_of_encode rfl rfl, ?srl⟩,
    fun rd rt shamt => ⟨hasFunct_of_encode rfl rfl, ?sra⟩,
    fun rd rt rs => ⟨hasFunct_of_encode rfl rfl, ?sllv⟩,
    fun rd rt rs => ⟨hasFunct_of_encode rfl rfl, ?srlv⟩,
    fun rd rt rs => ⟨hasFunct_of_encode rfl rfl, ?srav⟩⟩
  case sll => exact executesTo_of_setResult (fun _ => rfl) fun r => shiftLeft_eq_ofNat_mul r.v1 shamt.toNat
  case srl => exact executesTo_of_setResult (fun _ => rfl) fun r => ushiftRight_eq_ofNat_div r.v1 shamt.toNat
  case sra => exact executesTo_of_setResult (fun _ => rfl) fun r => sshiftRight_eq_ofInt_div r.v1 shamt.toNat
  case sllv => exact executesTo_of_setResult (fun _ => rfl) fun r => shiftLeft_eq_ofNat_mul r.v1 (variableShift r.v2)
  case srlv => exact executesTo_of_setResult (fun _ => rfl) fun r => ushiftRight_eq_ofNat_div r.v1 (variableShift r.v2)
  case srav => exact executesTo_of_setResult (fun _ => rfl) fun r => sshiftRight_eq_ofInt_div r.v1 (variableShift r.v2)

/-- Settles O28: each comparison decides its proposition; `slti` by the signed value of the extended immediate. -/
theorem comparisonsComplete : Obligations.ComparisonsComplete := by
  refine ⟨fun rd rs rt => ⟨hasFunct_of_encode rfl rfl, ?slt⟩,
    fun rd rs rt => ⟨hasFunct_of_encode rfl rfl, ?sltu⟩,
    fun rt rs imm => ⟨hasOpcode_of_encode rfl rfl, ?slti⟩,
    fun rt rs imm => ⟨hasOpcode_of_encode rfl rfl, ?sltiu⟩⟩
  case slt => exact executesTo_of_setResult (fun _ => rfl) fun r => boolWord_signedLess r.v1 r.v2
  case sltu => exact executesTo_of_setResult (fun _ => rfl) fun r => boolWord_unsignedLess r.v1 r.v2
  case slti =>
    refine executesTo_of_setResult (fun _ => rfl) fun r => ?_
    rw [boolWord_signedLess, sext16_toInt]
  case sltiu => exact executesTo_of_setResult (fun _ => rfl) fun r => boolWord_unsignedLess r.v1 (sext16 imm)

end Sys2Proof.Machine

/-! # Multiply, divide and HI/LO (spec 42)

First the execute stage's two ways out, for an execute part of any kind. Then the product and the two divisions: each
execute part as one equation per outcome, in the words of `BitVec`'s own operations, and the laws of 42 R204. Then the
statements of this family. -/

namespace Sys2Proof.Machine

/-! ### The two ways out of the execute stage (40 R119) -/

section Execute

variable {i : Instr} {compute : ExecutePart} {access : MemoryPart} {s : State} {r : InstrRecord}

theorem exec_of_compute_ok {r' : InstrRecord} (hexec : exec i s = perform i compute access s) (h : AtExecute s r)
    (hok : compute r = .ok r') : exec i s = .next (toMemory r' s) := by
  rw [hexec, perform_execute h, executePart, hok]

theorem exec_of_compute_error {stop : Stop} (hexec : exec i s = perform i compute access s) (h : AtExecute s r)
    (herror : compute r = .error stop) : exec i s = .next (s.raise stop) := by
  rw [hexec, perform_execute h, executePart, herror]

end Execute

/-! ### The product (42 R200, R201) -/

/-- The halves that go to HI and LO are together the 64-bit pattern. -/
theorem halves_append (p : BitVec 64) : p.extractLsb' 32 32 ++ p.extractLsb' 0 32 = p :=
  BitVec.extractLsb'_append_extractLsb' (w := 32) (len := 32)

/-- The exact signed product of two words fits in 64 bits. -/
theorem toInt_ofInt_product (a b : Word) : (BitVec.ofInt 64 (a.toInt * b.toInt)).toInt = a.toInt * b.toInt := by
  have hle : a.toInt * b.toInt ≤ 2 ^ (32 * 2 - 2) := BitVec.toInt_mul_toInt_le
  have hge : -(2 ^ (32 * 2 - 2)) ≤ a.toInt * b.toInt := BitVec.le_toInt_mul_toInt
  apply BitVec.toInt_ofInt_eq_self (by decide) <;> omega

/-- The exact unsigned product of two words fits in 64 bits. -/
theorem toNat_ofNat_product (a b : Word) : (BitVec.ofNat 64 (a.toNat * b.toNat)).toNat = a.toNat * b.toNat := by
  have hlt : a.toNat * b.toNat < 2 ^ 32 * 2 ^ 32 := Nat.mul_lt_mul'' a.isLt b.isLt
  rw [BitVec.toNat_ofNat]
  exact Nat.mod_eq_of_lt hlt

/-! ### Signed division (42 R202, R204) -/

theorem ofInt_tdiv (a b : Word) : BitVec.ofInt 32 (a.toInt.tdiv b.toInt) = a.sdiv b := by
  apply BitVec.eq_of_toInt_eq
  rw [BitVec.toInt_ofInt, BitVec.toInt_sdiv]

theorem ofInt_sub_tdiv_mul (a b : Word) :
    BitVec.ofInt 32 (a.toInt - a.toInt.tdiv b.toInt * b.toInt) = a.srem b := by
  rw [Int.mul_comm, ← Int.tmod_def, ← BitVec.toInt_srem, BitVec.ofInt_toInt]

/-- The spec's choice where MIPS leaves the result unpredictable (42 R204); so is the overflow below. -/
theorem divideSigned_by_zero (name : String) {r : InstrRecord} (hzero : r.v2.toInt = 0) :
    divideSigned name r = .error ⟨.divideByZero, .instr r.pc name⟩ := if_pos hzero

theorem divideSigned_overflow (name : String) {r : InstrRecord} (ha : r.v1.toInt = -2 ^ 31) (hb : r.v2.toInt = -1) :
    divideSigned name r = .error ⟨.divideOverflow, .instr r.pc name⟩ := by
  have hzero : r.v2.toInt ≠ 0 := by omega
  simp only [divideSigned, if_neg hzero, if_pos (And.intro ha hb)]

theorem divideSigned_completes (name : String) {r : InstrRecord} (hzero : r.v2.toInt ≠ 0)
    (hfits : ¬ (r.v1.toInt = -2 ^ 31 ∧ r.v2.toInt = -1)) :
    divideSigned name r = .ok { r with result := r.v1.sdiv r.v2, result2 := r.v1.srem r.v2 } := by
  simp only [divideSigned, if_neg hzero, if_neg hfits, ofInt_tdiv, ofInt_sub_tdiv_mul]

/-- Outside the overflow case the quotient is exact. -/
theorem toInt_sdiv_exact {a b : Word} (hfits : ¬ (a.toInt = -2 ^ 31 ∧ b.toInt = -1)) :
    (a.sdiv b).toInt = a.toInt.tdiv b.toInt := by
  apply BitVec.toInt_sdiv_of_ne_or_ne
  by_contra! hoverflow
  obtain ⟨rfl, rfl⟩ := hoverflow
  exact hfits (by decide)

theorem abs_tmod_lt_abs (a : Int) {b : Int} (hb : b ≠ 0) : |a.tmod b| < |b| := by
  rw [Int.abs_eq_natAbs, Int.abs_eq_natAbs, Int.natAbs_tmod, Int.ofNat_lt]
  exact Nat.mod_lt _ (Int.natAbs_pos.mpr hb)

/-- A remainder that is not zero has the sign of the dividend. -/
theorem tmod_neg_iff {a b : Int} (hrem : a.tmod b ≠ 0) : a.tmod b < 0 ↔ a < 0 := by
  have hsign : (a.tmod b).sign = a.sign := by
    rw [Int.sign_tmod, if_neg fun hdvd => hrem (Int.tmod_eq_zero_of_dvd hdvd)]
  rw [← Int.sign_eq_neg_one_iff_neg, hsign, Int.sign_eq_neg_one_iff_neg]

/-! ### Unsigned division (42 R203, R204) -/

theorem divideUnsigned_by_zero (name : String) {r : InstrRecord} (hzero : r.v2 = 0#32) :
    divideUnsigned name r = .error ⟨.divideByZero, .instr r.pc name⟩ := if_pos hzero

theorem divideUnsigned_completes (name : String) {r : InstrRecord} (hzero : r.v2 ≠ 0#32) :
    divideUnsigned name r = .ok { r with result := r.v1 / r.v2, result2 := r.v1 % r.v2 } := by
  simp only [divideUnsigned, if_neg hzero, ← BitVec.udiv_def, ← BitVec.umod_def]

/-! ### The statements -/

/-- Settles O29: the two halves are the 64-bit product, in which the exact product fits. -/
theorem multiplyIsExact : Obligations.MultiplyIsExact := by
  refine ⟨fun rs rt => ⟨hasFunct_of_encode rfl rfl, fun s r h => ⟨_, _, exec_of_compute_ok rfl h rfl, ?mult⟩⟩,
    fun rs rt => ⟨hasFunct_of_encode rfl rfl, fun s r h => ⟨_, _, exec_of_compute_ok rfl h rfl, ?multu⟩⟩⟩
  case mult => rw [halves_append, toInt_ofInt_product]
  case multu => rw [halves_append, toNat_ofNat_product]

/-- Settles O30: quotient and remainder are the words of `tdiv` and `tmod`, or of `/` and `%`. -/
theorem divideCompletes : Obligations.DivideCompletes := by
  refine ⟨fun rs rt => ⟨hasFunct_of_encode rfl rfl, fun s r h hzero hfits => ?div⟩,
    fun rs rt => ⟨hasFunct_of_encode rfl rfl, fun s r h hzero => ?divu⟩⟩
  case div =>
    refine ⟨_, _, exec_of_compute_ok rfl h (divideSigned_completes "div" hzero hfits), ?_⟩
    rw [toInt_sdiv_exact hfits, BitVec.toInt_srem]
    exact ⟨(Int.tdiv_mul_add_tmod _ _).symm, abs_tmod_lt_abs _ hzero, tmod_neg_iff, rfl⟩
  case divu =>
    have hne : r.v2 ≠ 0#32 := fun heq => hzero (congrArg BitVec.toNat heq)
    refine ⟨_, _, exec_of_compute_ok rfl h (divideUnsigned_completes "divu" hne), ?_⟩
    rw [BitVec.toNat_udiv, BitVec.toNat_umod]
    exact ⟨(Nat.div_add_mod' _ _).symm, Nat.mod_lt _ (Nat.pos_of_ne_zero hzero)⟩

/-- Settles O31: in each of the three cases the execute part answers the Fatal. -/
theorem divideTraps : Obligations.DivideTraps := by
  refine ⟨fun rs rt s r h hzero => exec_of_compute_error rfl h (divideSigned_by_zero "div" ?zero),
    fun rs rt s r h ⟨ha, hb⟩ => exec_of_compute_error rfl h (divideSigned_overflow "div" ?min ?minusOne),
    fun rs rt s r h hzero => exec_of_compute_error rfl h (divideUnsigned_by_zero "divu" hzero)⟩
  case zero => rw [hzero]; decide
  case min => rw [ha]; decide
  case minusOne => rw [hb]; decide

/-- Settles O32: a move sets the result to the source's value, and nothing else. -/
theorem hiLoMovesComplete : Obligations.HiLoMovesComplete := by
  refine ⟨fun rd => ⟨hasFunct_of_encode rfl rfl, ?mfhi⟩, fun rs => ⟨hasFunct_of_encode rfl rfl, ?mthi⟩,
    fun rd => ⟨hasFunct_of_encode rfl rfl, ?mflo⟩, fun rs => ⟨hasFunct_of_encode rfl rfl, ?mtlo⟩⟩
  case mfhi | mthi | mflo | mtlo => exact fun s r h => exec_of_compute_ok (compute := moveValue) rfl h rfl

end Sys2Proof.Machine

/-! # Branches and jumps (spec 43)

First the key of a J-format instruction. Then the two targets as arithmetic: a branch's displacement counts words, and
a jump's target is the base of its region plus the target field in words. Then the three kinds of execute part of this
family, and the statements. -/

namespace Sys2Proof.Machine

/-! ### The key of a J-format instruction (30 R88) -/

/-- An instruction encoded as a J-format word is decoded from words with its opcode only. -/
theorem hasOpcode_of_encode_jWord {i : Instr} {row : OperandRow} {opcode : Nat} {target : BitVec 26}
    (hrow : i.row = row) (henc : encode i = jWord opcode target) (hopcode : opcode < 64 := by decide) :
    HasOpcode i opcode row := by
  refine ⟨hrow, fun w hw => ?_⟩
  obtain ⟨-, hop, -⟩ := encode_keeps_key hw
  rw [henc, opcodeOf_jWord, Nat.mod_eq_of_lt hopcode] at hop
  exact hop.symm

/-! ### The targets (43 R220, R224) -/

theorem nextPc_eq (pc : Word) : nextPc pc = pc + 4#32 := rfl

/-- The displacement counts words: two places up is four times the signed value, modulo 2^32. -/
theorem sext16_shiftLeft_two (imm : Half) : sext16 imm <<< 2 = BitVec.ofInt 32 (imm.toInt * 4) := by
  rw [← sext16_toInt, BitVec.ofInt_mul, BitVec.ofInt_toInt, BitVec.shiftLeft_eq_mul_twoPow]
  rfl

theorem branchTarget_eq (pc : Word) (imm : Half) :
    branchTarget pc imm = pc + 4#32 + BitVec.ofInt 32 (imm.toInt * 4) := by
  rw [branchTarget, nextPc_eq, sext16_shiftLeft_two]

/-- The upper 4 bits of a word are its 256 MB region (43 R224). -/
theorem toNat_region (a : Word) : (a.extractLsb' 28 4).toNat = a.toNat / 2 ^ 28 := by
  rw [BitVec.extractLsb'_toNat, Nat.shiftRight_eq_div_pow]
  omega

/-- Below the region stands the target field, counted in words, so the target is a multiple of 4. -/
theorem jumpTarget_eq (pc : Word) (target : BitVec 26) :
    jumpTarget pc target = BitVec.ofNat 32 ((pc + 4#32).toNat / 2 ^ 28 * 2 ^ 28 + target.toNat * 4) := by
  apply BitVec.eq_of_toNat_eq
  rw [jumpTarget, nextPc_eq, BitVec.toNat_append, BitVec.toNat_append, toNat_region, BitVec.toNat_ofNat,
    ← Nat.shiftLeft_add_eq_or_of_lt target.isLt, ← Nat.shiftLeft_add_eq_or_of_lt (by decide)]
  simp only [Nat.shiftLeft_eq, BitVec.toNat_ofNat]
  omega

/-! ### The execute parts of branches and jumps (43 R220 to R227) -/

/-- A branch completes with its target if its condition holds, and with the next word's address otherwise. -/
theorem executesTo_of_branchIf {i : Instr} {taken : InstrRecord → Bool} {cond : InstrRecord → Prop}
    [DecidablePred cond] {imm : Half} (hexec : ∀ s, exec i s = perform i (branchIf taken imm) passMemory s)
    (htaken : ∀ r, taken r = true ↔ cond r) :
    ExecutesTo i (fun _ r => { r with
      newPc := if cond r then r.pc + 4#32 + BitVec.ofInt 32 (imm.toInt * 4) else r.pc + 4#32 }) := by
  intro s r h
  refine exec_of_compute_ok (hexec s) h ?_
  simp only [branchIf, htaken, branchTarget_eq, nextPc_eq]

section Jump

variable {i : Instr} {f g : InstrRecord → Word}

theorem executesTo_of_jumpTo (hexec : ∀ s, exec i s = perform i (jumpTo f) passMemory s) (hfg : ∀ r, f r = g r) :
    ExecutesTo i (fun _ r => { r with newPc := g r }) := by
  intro s r h
  refine exec_of_compute_ok (hexec s) h ?_
  rw [jumpTo, hfg]

theorem executesTo_of_jumpAndLink
    (hexec : ∀ s, exec i s = perform i (jumpAndLink s.params.linkOffset f) passMemory s) (hfg : ∀ r, f r = g r) :
    ExecutesTo i (fun s r => { r with newPc := g r, result := r.pc + s.params.linkOffset }) := by
  intro s r h
  refine exec_of_compute_ok (hexec s) h ?_
  rw [jumpAndLink, hfg]

end Jump

/-! ### The statements -/

/-- Settles O33: each branch's test decides its condition. -/
theorem branchesComplete : Obligations.BranchesComplete := by
  refine ⟨fun rs rt imm => ⟨hasOpcode_of_encode rfl rfl, rfl, ?beq⟩,
    fun rs rt imm => ⟨hasOpcode_of_encode rfl rfl, rfl, ?bne⟩,
    fun rs imm => ⟨hasOpcode_of_encode rfl rfl, rfl, ?blez⟩,
    fun rs imm => ⟨hasOpcode_of_encode rfl rfl, rfl, ?bgtz⟩⟩
  case beq => exact executesTo_of_branchIf (fun _ => rfl) fun _ => beq_iff_eq
  case bne => exact executesTo_of_branchIf (fun _ => rfl) fun _ => bne_iff_ne
  case blez | bgtz => exact executesTo_of_branchIf (fun _ => rfl) fun _ => decide_eq_true_iff

/-- Settles O34: `j` and `jal` by the arithmetic of their target; `jr` and `jalr` take the register as the model
does. -/
theorem jumpsComplete : Obligations.JumpsComplete := by
  refine ⟨fun target => ⟨hasOpcode_of_encode_jWord rfl rfl, rfl, ?j⟩,
    fun target => ⟨hasOpcode_of_encode_jWord rfl rfl, rfl, ?jal⟩,
    fun rs => ⟨hasFunct_of_encode rfl rfl, rfl, ?jr⟩,
    fun rd rs => ⟨hasFunct_of_encode rfl rfl, rfl, ?jalr⟩⟩
  case j => exact executesTo_of_jumpTo (fun _ => rfl) fun r => jumpTarget_eq r.pc target
  case jal => exact executesTo_of_jumpAndLink (fun _ => rfl) fun r => jumpTarget_eq r.pc target
  case jr => exact executesTo_of_jumpTo (fun _ => rfl) fun _ => rfl
  case jalr => exact executesTo_of_jumpAndLink (fun _ => rfl) fun _ => rfl

end Sys2Proof.Machine

/-! # Loads and stores (spec 44)

First the execute part, which all eight share, and the memory part of a load and of a store: each way out as one
equation for `exec` in the memory stage. Then the two narrow reads. Then the statements of this family. -/

namespace Sys2Proof.Machine

/-! ### The effective address (44 R248) -/

/-- A load or store, whose words have the one opcode, completes the execute stage with its address and width. -/
theorem hasOpcode_and_executesTo_address {i : Instr} {row : OperandRow} {opcode rs rt n : Nat} {imm : Half}
    {access : MemoryPart} (hrow : i.row = row) (henc : encode i = iWord opcode rs rt imm)
    (hexec : ∀ s, exec i s = perform i (setAddress imm n) access s) (hopcode : opcode < 64 := by decide) :
    HasOpcode i opcode row ∧
      ExecutesTo i (fun _ r => { r with addr := r.v1 + imm.signExtend 32, width := n }) :=
  ⟨hasOpcode_of_encode hrow henc hopcode, fun s _ h => exec_of_compute_ok (hexec s) h rfl⟩

/-! ### The memory parts of loads and stores (40 R120) -/

theorem memoryPartOf_of_load {i : Instr} (h : i.isLoad = true) : ∃ extend, memoryPartOf i = loadMemory extend := by
  cases i <;> first | exact ⟨_, rfl⟩ | exact Bool.noConfusion h

theorem memoryPartOf_of_store {i : Instr} (h : i.isStore = true) : memoryPartOf i = storeMemory := by
  cases i <;> first | rfl | exact Bool.noConfusion h

theorem isLoad_of_mem_loads {rt rs : Nat} {imm : Half} :
    ∀ i ∈ [Instr.lb rt imm rs, .lh rt imm rs, .lw rt imm rs, .lbu rt imm rs, .lhu rt imm rs], i.isLoad = true :=
  List.all_eq_true.mp rfl

theorem isStore_of_mem_stores {rt rs : Nat} {imm : Half} :
    ∀ i ∈ [Instr.sb rt imm rs, .sh rt imm rs, .sw rt imm rs], i.isStore = true :=
  List.all_eq_true.mp rfl

section MemoryStage

variable {i : Instr} {s : State} {r : InstrRecord}

theorem exec_load_of_read_ok {extend : Nat → Word} {v : Nat} (hpart : memoryPartOf i = loadMemory extend)
    (hat : AtMemory s r) (hread : memRead s .unmappedLoad r.addr.toNat r.width = .ok v) :
    exec i s = .next (toWriteback { r with result := extend v } s) := by
  rw [exec_memory_eq hat, hpart, memoryPart, loadMemory, hread]

theorem exec_load_of_read_error {stop : Stop} (hload : i.isLoad = true) (hat : AtMemory s r)
    (hread : memRead s .unmappedLoad r.addr.toNat r.width = .error stop) :
    exec i s = .next (s.raise stop) := by
  obtain ⟨extend, hpart⟩ := memoryPartOf_of_load hload
  rw [exec_memory_eq hat, hpart, memoryPart, loadMemory, hread]

theorem exec_store_of_write_ok {t : State} (hstore : i.isStore = true) (hat : AtMemory s r)
    (hwrite : memWrite s r.addr.toNat r.width r.v2.toNat = .ok t) :
    exec i s = .next (toWriteback r t) := by
  rw [exec_memory_eq hat, memoryPartOf_of_store hstore, memoryPart, storeMemory, hwrite]

theorem exec_store_of_write_error {stop : Stop} (hstore : i.isStore = true) (hat : AtMemory s r)
    (hwrite : memWrite s r.addr.toNat r.width r.v2.toNat = .error stop) :
    exec i s = .next (s.raise stop) := by
  rw [exec_memory_eq hat, memoryPartOf_of_store hstore, memoryPart, storeMemory, hwrite]

end MemoryStage

/-! ### The value of a load (20 R57, 44 R240 to R244) -/

section NarrowRead

variable {s : State} (c : Cause) {a : Nat} {b0 b1 : Byte}

theorem memRead_one_byte (ha : a < Config.addrSpace) (h0 : s.byteAt a = some b0) :
    memRead s c a 1 = .ok b0.toNat :=
  memRead_succ_of (v := 0) ha h0 rfl

theorem toNat_append_two_bytes (b0 b1 : Byte) : (b1 ++ b0).toNat = b0.toNat + 256 * b1.toNat := by
  rw [BitVec.toNat_append, ← Nat.shiftLeft_add_eq_or_of_lt b0.isLt, Nat.shiftLeft_eq]
  omega

/-- A read of two bytes is the half-word whose lower byte stands first (20 R57). -/
theorem memRead_two_bytes (ha : a + 2 ≤ Config.addrSpace) (h0 : s.byteAt a = some b0)
    (h1 : s.byteAt (a + 1) = some b1) : memRead s c a 2 = .ok (b1 ++ b0).toNat := by
  rw [toNat_append_two_bytes]
  exact memRead_succ_of (by omega) h0 (memRead_one_byte c (by omega) h1)

end NarrowRead

theorem zext8_eq_append (b : Byte) : zext8 b = 0#24 ++ b :=
  BitVec.setWidth_eq_append (by decide)

/-! ### The statements -/

/-- Settles O36: the read's value is the bytes' pattern, which each load extends in its own way. -/
theorem loadsComplete : Obligations.LoadsComplete := by
  intro rt imm rs s r hat
  refine ⟨fun b0 hw h0 => ?byte, fun b0 b1 hw ha h0 h1 => ?half, fun b0 b1 b2 b3 hw ha h0 h1 h2 h3 => ?word⟩
  case byte =>
    have hread := hw ▸ memRead_one_byte .unmappedLoad r.addr.isLt h0
    rw [exec_load_of_read_ok (i := .lb rt imm rs) rfl hat hread,
      exec_load_of_read_ok (i := .lbu rt imm rs) rfl hat hread, BitVec.ofNat_toNat, BitVec.setWidth_eq, sext8,
      zext8_eq_append]
    exact ⟨rfl, rfl⟩
  case half =>
    have hread := hw ▸ memRead_two_bytes .unmappedLoad ha h0 h1
    rw [exec_load_of_read_ok (i := .lh rt imm rs) rfl hat hread,
      exec_load_of_read_ok (i := .lhu rt imm rs) rfl hat hread, BitVec.ofNat_toNat, BitVec.setWidth_eq, sext16,
      zext16_eq_append]
    exact ⟨rfl, rfl⟩
  case word =>
    have hread := hw ▸ memRead_four_bytes .unmappedLoad ha h0 h1 h2 h3
    rw [exec_load_of_read_ok (i := .lw rt imm rs) rfl hat hread, BitVec.ofNat_toNat, BitVec.setWidth_eq]

/-- Settles O37: every load's memory part is a read, whose Fatal it hands on. -/
theorem loadsTrap : Obligations.LoadsTrap :=
  fun _ _ _ _ _ _ hat hread i hi => exec_load_of_read_error (isLoad_of_mem_loads i hi) hat hread

/-- Settles O38: the bytes are those of the write (20 R54), and the frame is the memory stage's (40 R120). -/
theorem storesComplete : Obligations.StoresComplete := by
  intro rt imm rs s r hat hstorable hrange i hi
  have hexec := exec_store_of_write_ok (isStore_of_mem_stores i hi) hat
    (memWrite_of_storable s _ _ r.v2.toNat hrange hstorable)
  obtain ⟨hframe, -⟩ := memoryStageFrame i s _ r hat hexec
  exact ⟨_, hexec, rfl, rfl, rfl, fun k hk => byteAt_storeBytes_inside s _ _ _ hk,
    storeBytes_sameBytesOutside s _ _ _, hframe⟩

/-- Settles O39: the two checks of the write, each with its own failure. -/
theorem storesTrap : Obligations.StoresTrap := by
  intro rt imm rs s r hat i hi
  have hstore := isStore_of_mem_stores i hi
  refine ⟨fun hpast => ?range, fun hrange x hx => ?storage⟩
  case range => exact exec_store_of_write_error hstore hat (memWrite_past_end s _ _ _ r.addr.isLt.le hpast)
  case storage => exact exec_store_of_write_error hstore hat (memWrite_of_firstUnstorable s _ _ _ hrange hx)

/-- Settles O35: all eight have the one execute part, each with its own opcode and width. -/
theorem addressesComplete : Obligations.AddressesComplete := by
  intro rt imm rs
  refine ⟨?lb, ?lbu, ?lh, ?lhu, ?lw, ?sb, ?sh, ?sw⟩
  case lb | lbu | lh | lhu | lw | sb | sh | sw =>
    exact hasOpcode_and_executesTo_address rfl rfl fun _ => rfl

end Sys2Proof.Machine

/-! # System instructions (spec 45)

First the execute part the three share, one equation per setting of SYS_MODE, and what it makes of `exec` in the
execute stage. Then which instructions have it, and the statement of this family. -/

namespace Sys2Proof.Machine

/-! ### The execute part of the three (45 R260) -/

@[simp] theorem systemStop_fatal (name : String) (r : InstrRecord) :
    systemStop .fatal name r = .error ⟨.systemInstruction, .instr r.pc name⟩ := rfl

@[simp] theorem systemStop_nop (name : String) (r : InstrRecord) : systemStop .nop name r = .ok r := rfl

section SystemStop

variable {i : Instr} {name : String}

/-- A system instruction is a Fatal of the execute stage under SYS_MODE = fatal (45 R260). -/
theorem executeTraps_of_systemStop
    (hexec : ∀ s, exec i s = perform i (systemStop s.params.sysMode name) passMemory s) :
    ExecuteTraps i (fun s _ => s.params.sysMode = .fatal) (fun r => ⟨.systemInstruction, .instr r.pc name⟩) := by
  intro s r h hfatal
  exact exec_of_compute_error (hexec s) h (by rw [hfatal, systemStop_fatal])

/-- A system instruction hands its record on as it came under SYS_MODE = nop (45 R260, R263). -/
theorem exec_of_systemStop_nop
    (hexec : ∀ s, exec i s = perform i (systemStop s.params.sysMode name) passMemory s)
    (s : State) (r : InstrRecord) (h : AtExecute s r) (hnop : s.params.sysMode = .nop) :
    exec i s = .next (toMemory r s) :=
  exec_of_compute_ok (hexec s) h (by rw [hnop, systemStop_nop])

end SystemStop

/-- The three share the execute part, each under its own mnemonic (45 R260 to R262). -/
theorem exec_systemInstruction :
    ∀ p ∈ [(Instr.syscall, "syscall"), (.brk, "break"), (.trap, "trap")],
      ∀ s, exec p.1 s = perform p.1 (systemStop s.params.sysMode p.2) passMemory s := by
  simp only [List.forall_mem_cons]
  refine ⟨?syscall, ?brk, ?trap, List.forall_mem_nil _⟩
  case syscall | brk | trap => exact fun _ => rfl

/-! ### The statement -/

/-- Settles O42: the rows and keys are those of the encoding, and SYS_MODE alone decides between the two ways out
of the shared execute part. -/
theorem systemInstructions : Obligations.SystemInstructions := by
  refine ⟨hasFunct_of_encode rfl rfl, hasFunct_of_encode rfl rfl, hasOpcode_of_encode rfl rfl, fun p hp => ?modes⟩
  case modes =>
    have hexec := exec_systemInstruction p hp
    exact ⟨executeTraps_of_systemStop hexec, exec_of_systemStop_nop hexec⟩

end Sys2Proof.Machine

/-! # Fatal, the step and the run (spec 60, 40 R125, R130)

First the two ways a stage handler answers (`HandlerAnswer`), once for `exec` in any stage and once for each of the
five handlers. Then what that makes of a cycle: it always answers a next state, and a Fatal stops it as `StoppedAt`
says. Then the statements of this family. -/

namespace Sys2Proof.Machine

/-! ### Raising a Fatal (60 R272) -/

theorem raise_of_safe {s : State} (stop : Stop) (h : s.fatal = none) :
    s.raise stop = { s with fatal := some ⟨stop.cause, stop.info, s.cycle, s.stage⟩ } := by
  simp [State.raise, h]

/-! ### The two ways a stage handler answers (40 R115 to R120) -/

/-- The answers of the handler of stage `k` to the state `s`: a Fatal raised in that stage with nothing else changed,
or a state with the fatal status and the cycle of `s`, and with its memory too unless `k` is the memory stage. -/
inductive HandlerAnswer (k : Stage) (s : State) : Result → Prop where
  | fatal (stop : Stop) : HandlerAnswer k s (.next (State.raise { s with stage := k } stop))
  | pass (t : State) (hfatal : t.fatal = s.fatal) (hcycle : t.cycle = s.cycle)
      (hmem : k ≠ .memory → t.mem = s.mem) : HandlerAnswer k s (.next t)

theorem bubble_answer (k : Stage) (s : State) : HandlerAnswer k s (.next (State.bubble { s with stage := k })) :=
  .pass _ (by simp) (by simp) (by simp)

theorem writebackPart_answer (i : Instr) (r : InstrRecord) (s : State) :
    HandlerAnswer .writeback s (.next (writebackPart i r { s with stage := .writeback })) := by
  rcases writebackPart_cases i r { s with stage := .writeback } with ⟨stop, h⟩ | ⟨-, -, h⟩ <;> rw [h]
  · exact .fatal stop
  · exact .pass _ (by simp) (by simp) (by simp)

theorem decodePart_answer (i : Instr) (f : Fetched) (s : State) :
    HandlerAnswer .decode s (.next (decodePart i f { s with stage := .decode })) := by
  rcases decodePart_cases i f { s with stage := .decode } with ⟨-, h⟩ | ⟨-, stop, h⟩ | ⟨-, -, -, h⟩ <;> rw [h]
  · exact .pass _ (by simp) (by simp) (by simp)
  · exact .fatal stop
  · exact .pass _ (by simp) (by simp) (by simp)

theorem executePart_answer (compute : ExecutePart) (r : InstrRecord) (s : State) :
    HandlerAnswer .execute s (.next (executePart compute r { s with stage := .execute })) := by
  unfold executePart
  cases compute r with
  | error stop => exact .fatal stop
  | ok r' => exact .pass _ rfl rfl (fun _ => rfl)

/-- A store that raises a Fatal has written nothing: `memWrite` checks before its first change (40 R130). -/
theorem memoryPart_answer {access : MemoryPart} (ha : AccessShape access) (r : InstrRecord) (s : State) :
    HandlerAnswer .memory s (.next (memoryPart access r { s with stage := .memory })) := by
  rcases memoryPart_cases access ha r { s with stage := .memory } with
    ⟨stop, h⟩ | ⟨s', r', h, -, rfl | hs⟩ <;> rw [h]
  · exact .fatal stop
  · exact .pass _ rfl rfl (fun _ => rfl)
  · rw [memWrite_eq_with_mem hs]
    exact .pass _ rfl rfl (fun hk => absurd rfl hk)

theorem exec_answer (i : Instr) (k : Stage) (s : State) : HandlerAnswer k s (exec i { s with stage := k }) := by
  obtain ⟨compute, access, he, -, ha⟩ := exec_eq_perform i { s with stage := k }
  rw [he, perform]
  cases k with
  | writeback =>
    dsimp only
    split
    · exact writebackPart_answer i _ s
    · exact bubble_answer .writeback s
  | decode =>
    dsimp only
    split
    · exact decodePart_answer i _ s
    · exact bubble_answer .decode s
  | fetch => exact .pass _ rfl rfl (fun _ => rfl)
  | execute =>
    dsimp only
    split
    · exact executePart_answer compute _ s
    · exact bubble_answer .execute s
  | memory =>
    dsimp only
    split
    · exact memoryPart_answer ha _ s
    · exact bubble_answer .memory s
  | loader => exact .pass _ rfl rfl (fun _ => rfl)

theorem writebackStage_answer (s : State) : HandlerAnswer .writeback s (writebackStage s) := by
  unfold writebackStage
  dsimp only
  split
  · exact exec_answer _ .writeback s
  · exact bubble_answer .writeback s

theorem decodeStage_answer (s : State) : HandlerAnswer .decode s (decodeStage s) := by
  unfold decodeStage
  dsimp only
  split
  · exact .pass _ (by simp) (by simp) (by simp)
  · split
    · exact bubble_answer .decode s
    · split
      · exact .fatal _
      · exact exec_answer _ .decode s

theorem fetchStage_answer (s : State) : HandlerAnswer .fetch s (fetchStage s) := by
  rcases fetchStage_cases s with ⟨-, h⟩ | ⟨stop, h⟩ | ⟨-, v, -, h⟩ <;> rw [h]
  · exact bubble_answer .fetch s
  · exact .fatal stop
  · exact .pass _ rfl rfl (fun _ => rfl)

theorem executeStage_answer (s : State) : HandlerAnswer .execute s (executeStage s) := by
  unfold executeStage
  dsimp only
  split
  · exact .pass _ (by simp) (by simp) (by simp)
  · split
    · exact bubble_answer .execute s
    · exact exec_answer _ .execute s

theorem memoryStage_answer (s : State) : HandlerAnswer .memory s (memoryStage s) := by
  unfold memoryStage
  dsimp only
  split
  · exact .pass _ (by simp) (by simp) (by simp)
  · split
    · exact bubble_answer .memory s
    · exact exec_answer _ .memory s

/-! ### A cycle answers a next state -/

theorem HandlerAnswer.exists_next {k : Stage} {s : State} {o : Result} (h : HandlerAnswer k s o) :
    ∃ t, o = .next t := by
  cases h with
  | fatal stop => exact ⟨_, rfl⟩
  | pass t => exact ⟨t, rfl⟩

/-- Whether or not the cycle stops at `o` (40 R130). -/
theorem exists_next_chain {o : Result} {g : State → Result} (ho : ∃ u, o = .next u)
    (hg : ∀ u, ∃ t, g u = .next t) : ∃ t, chain o g = .next t := by
  obtain ⟨u, rfl⟩ := ho
  cases hu : u.fatal with
  | none => rw [chain_of_safe hu]; exact hg u
  | some e => exact ⟨u, (chain_next _ _ _).mpr (.inl ⟨rfl, by simp [hu]⟩)⟩

theorem runCycle_exists_next (s : State) : ∃ t, runCycle s = .next t :=
  exists_next_chain (writebackStage_answer _).exists_next fun a =>
  exists_next_chain (decodeStage_answer a).exists_next fun b =>
  exists_next_chain (fetchStage_answer b).exists_next fun c =>
  exists_next_chain (executeStage_answer c).exists_next fun d =>
  exists_next_chain (memoryStage_answer d).exists_next fun e => ⟨endCycle e, rfl⟩

/-! ### A Fatal stops the cycle (60 R272, R274, 40 R130) -/

/-- The state `t` is one in which a cycle begun in `s` was stopped by the Fatal `e`. -/
structure StoppedAt (s t : State) (e : FatalRecord) : Prop where
  recordCycle : e.cycle = s.cycle
  cycle : t.cycle = s.cycle
  recordStage : e.stage = t.stage
  notLoader : e.stage ≠ .loader
  mem : t.mem = s.mem

/-- Whatever Fatal `f` raises from a state without one, it stops the cycle there. -/
def StopsTheCycle (f : State → Result) : Prop :=
  ∀ s t e, s.fatal = none → f s = .next t → t.fatal = some e → StoppedAt s t e

section Handler

variable {k : Stage}

theorem HandlerAnswer.stoppedAt {s t : State} {e : FatalRecord} (hk : k ≠ .loader)
    (h : HandlerAnswer k s (.next t)) (hs : s.fatal = none) (he : t.fatal = some e) : StoppedAt s t e := by
  cases h with
  | fatal stop =>
    rw [raise_fatal_of_safe { s with stage := k } stop hs] at he
    cases he
    exact ⟨rfl, by simp, by simp, hk, by simp⟩
  | pass _ hfatal => simp [hfatal, hs] at he

theorem HandlerAnswer.keeps_of_safe {s t : State} (h : HandlerAnswer k s (.next t)) (ht : t.fatal = none) :
    t.cycle = s.cycle ∧ (k ≠ .memory → t.mem = s.mem) := by
  cases h with
  | fatal stop => exact absurd ht (raise_not_safe _ stop)
  | pass _ _ hcycle hmem => exact ⟨hcycle, hmem⟩

variable {f g : State → Result}

/-- A handler other than the memory handler, and what runs after it when it raises no Fatal. -/
theorem StopsTheCycle.chain (hk : k ≠ .loader) (hmemory : k ≠ .memory) (hf : ∀ s, HandlerAnswer k s (f s))
    (hg : StopsTheCycle g) : StopsTheCycle fun s => chain (f s) g := by
  intro s t e hs h he
  have hans := hf s
  rcases (chain_next _ _ _).mp h with ⟨hft, -⟩ | ⟨u, hfu, hu, hgt⟩
  · exact (hft ▸ hans).stoppedAt hk hs he
  · obtain ⟨hcycle, hmem⟩ := (hfu ▸ hans).keeps_of_safe hu
    have stopped := hg u t e hu hgt he
    exact ⟨stopped.recordCycle.trans hcycle, stopped.cycle.trans hcycle, stopped.recordStage, stopped.notLoader,
      stopped.mem.trans (hmem hmemory)⟩

/-- The last handler of a cycle: only without a Fatal does the cycle end and its counter advance (40 R110). -/
theorem stopsTheCycle_chain_endCycle (hk : k ≠ .loader) (hf : ∀ s, HandlerAnswer k s (f s)) :
    StopsTheCycle fun s => Machine.chain (f s) fun t => .next (endCycle t) := by
  intro s t e hs h he
  have hans := hf s
  rcases (chain_next _ _ _).mp h with ⟨hft, -⟩ | ⟨u, -, hu, hend⟩
  · exact (hft ▸ hans).stoppedAt hk hs he
  · cases hend
    simp [hu] at he

end Handler

theorem runCycle_stopsTheCycle : StopsTheCycle runCycle := by
  have hmemory := stopsTheCycle_chain_endCycle (by decide) memoryStage_answer
  have hexecute := hmemory.chain (by decide) (by decide) executeStage_answer
  have hfetch := hexecute.chain (by decide) (by decide) fetchStage_answer
  have hdecode := hfetch.chain (by decide) (by decide) decodeStage_answer
  have hwriteback := hdecode.chain (by decide) (by decide) writebackStage_answer
  intro s t e hs h he
  have stopped := hwriteback (startCycle s) t e hs h he
  exact ⟨stopped.recordCycle, stopped.cycle, stopped.recordStage, stopped.notLoader, stopped.mem⟩

/-! ### The statements -/

/-- Settles O44: every handler answers a next state, whatever instruction it holds, and a cycle is their chain. -/
theorem everyStepHasANextState : Obligations.EveryStepHasANextState := by
  refine ⟨fun i s => (exec_answer i s.stage s).exists_next, fun s => ?step⟩
  case step =>
    by_cases hrun : s.isRunning = true
    · rw [step_running s hrun]
      exact runCycle_exists_next s
    · exact ⟨s, step_ended hrun⟩

/-- Settles O45, by induction on the number of steps, each of which answers the same state. -/
theorem endedRunStaysAsItIs : Obligations.EndedRunStaysAsItIs := by
  intro k s hended
  have hstep : step s = .next s := step_ended fun hrun => by
    obtain ⟨hfatal, hlt⟩ := (isRunning_iff s).mp hrun
    rcases hended with h | h
    · simp [hfatal] at h
    · exact h hlt
  induction k with
  | zero => rfl
  | succ k ih => exact (run_succ k s s hstep).trans ih

/-- Settles O50: a step that ends with a Fatal was a cycle, and the handler that raised it stopped it. -/
theorem fatalStopsTheCycle : Obligations.FatalStopsTheCycle := by
  intro s t e hs h he
  by_cases hrun : s.isRunning = true
  · rw [step_running s hrun] at h
    obtain ⟨hrecord, hcycle, hstage, hloader, hmem⟩ := runCycle_stopsTheCycle s t e hs h he
    exact ⟨hrecord, hcycle, hstage, hloader, hmem⟩
  · rw [step_ended hrun] at h
    cases h
    simp [hs] at he

/-- Settles O43: the record is written where there is none, and stays where there is one. -/
theorem raiseSetsTheRecordOnce : Obligations.RaiseSetsTheRecordOnce := fun s stop =>
  ⟨raise_of_safe stop, raise_of_fatal s stop⟩

end Sys2Proof.Machine

/-! # Refused images (spec 70 R301, 20 R55)

The two refusals of the reset sequence, each from the lookup that finds the fault: `badSection` and `textSection`.
The images that are not refused are with the loader, in the memory family. Then the statement of this family. -/

namespace Sys2Proof.Machine

/-- A section past the address space may not be handed over (70 R301). -/
theorem section_not_wellFormed_of_outside {c : Section} (h : c.inAddressSpace = false) : c.wellFormed = false := by
  rw [Section.wellFormed, h, Bool.and_false]

section Refusal

variable {p : Params} {n : Counter} {image : List Section}

theorem exists_badSection (h : ∃ c ∈ image, c.wellFormed = false) : ∃ bad, badSection image = some bad := by
  obtain ⟨c, hc, hbad⟩ := h
  exact Option.isSome_iff_exists.mp (List.find?_isSome.mpr ⟨c, hc, by simp [hbad]⟩)

theorem textSection_eq_none (h : ∀ c ∈ image, c.name ≠ textName) : textSection image = none := by
  rw [textSection, List.getLast?_eq_none_iff, List.filter_eq_nil_iff]
  simpa using h

/-- A section that may not be handed over is refused before `.text` is looked for (log 16). -/
theorem boot_of_badSection {bad : Section} (h : badSection image = some bad) :
    boot p n image = .refused (.malformedSection bad.name) := by
  simp only [boot, h]

theorem boot_of_noTextSection (hw : badSection image = none) (ht : textSection image = none) :
    boot p n image = .refused .noTextSection := by
  simp only [boot, hw, ht]

end Refusal

/-! ### The statement -/

/-- Settles O8: the sections pass the first check and there is no `.text`, or a section past the address space
keeps the first check from passing, though the section it names may be an earlier one. -/
theorem bootRefusesBadImages : Obligations.BootRefusesBadImages := by
  intro p n image
  refine ⟨fun hw ht => ?noText, fun ⟨c, hc, houtside⟩ => ?outside⟩
  case noText => exact boot_of_noTextSection (badSection_eq_none hw) (textSection_eq_none ht)
  case outside =>
    obtain ⟨bad, hbad⟩ := exists_badSection ⟨c, hc, section_not_wellFormed_of_outside houtside⟩
    exact ⟨bad.name, boot_of_badSection hbad⟩

end Sys2Proof.Machine
